-- ==== Sys2Proof/Word.lean ====
section
/-! DEFINITION. The word types of the Slosin (IFD-E1S) and the plainest arithmetic on them. -/

namespace Sys2Proof

/-- One byte of memory. -/
abbrev Byte := BitVec 8

/-- The contents of one 64-byte line, byte 0 in bits 7..0 (R4: little-endian). -/
abbrev Line := BitVec 512

/-- A 64-bit register or a 64-bit descriptor field. -/
abbrev Word64 := BitVec 64

/-- A pool address has 56 bits (chapter 3). -/
abbrev PoolAddr := BitVec 56

/-- Bits `lo .. lo+w-1` of a natural number. -/
def bitsOf (n lo w : Nat) : Nat := n / 2 ^ lo % 2 ^ w

/-- One bit of a natural number. -/
def bitAt (n i : Nat) : Bool := n / 2 ^ i % 2 == 1

/-- 1 for true, 0 for false. -/
def b2n (b : Bool) : Nat := if b then 1 else 0

end Sys2Proof
end

