-- ==== Sys2Proof/Syntax.lean ====
section
/-! DEFINITION. The commands of the Slosin: one constructor for each row of the table of operations and events, with
the operands the rules give it. What comes from outside the block (packets, host requests, measurements, elapsed
time) is an operand. -/

namespace Sys2Proof

/-- Who makes a register access (R550, R551): a host through BAR0 of its port, management, or Onyx firmware. -/
inductive Src where
  | host (port : Fin 24) (reqId : BitVec 16)
  | mgmt
  | firmware
  deriving DecidableEq, Repr

/-- One register access of right size and alignment: 64 bits (`wide`) or 32 bits. For a host the address is a BAR0
offset, otherwise an address of the device register space. -/
structure RegAcc where
  addr : BitVec 64
  wide : Bool
  value : BitVec 64
  deriving DecidableEq, Repr

/-- What ECC finds in a line that a command reads (R108, R449). -/
inductive Ecc where
  | clean | ce | ue
  deriving DecidableEq, Repr

/-- A packet header (R153). -/
structure Hdr where
  pktLen : BitVec 5 := 0
  vc : BitVec 3 := 0
  opc : BitVec 8 := 0
  dst : BitVec 12 := 0
  rsvdA : BitVec 4 := 0
  src : BitVec 12 := 0
  rsvdB : BitVec 4 := 0
  hops : BitVec 3 := 0
  bittern : Bool := false
  reason : BitVec 4 := 0
  rsvdC : BitVec 8 := 0
  cmpId : BitVec 16 := 0
  tag : BitVec 16 := 0
  srcInc : BitVec 16 := 0
  dstInc : BitVec 16 := 0
  pa : BitVec 56 := 0
  paRsvd : BitVec 8 := 0
  oparg : BitVec 64 := 0
  deriving DecidableEq, Repr

/-- A packet: its header and the 16-byte slots after it. -/
structure Pkt where
  hdr : Hdr
  body : List (BitVec 128)
  deriving DecidableEq, Repr

/-- How a message reaches an agent: from a tile of this Slosin, or in a packet from the fabric. -/
inductive Via where
  | tile (t : Fin 32)
  | packet (h : Hdr)
  deriving DecidableEq, Repr

/-- A caching agent of this Slosin (R115, R117). -/
inductive CAgent where
  | tile (t : Fin 32)
  | filter
  deriving DecidableEq, Repr

/-- A request to a line's home. In a packet the composition and the address are the header's. -/
structure HomeMsg where
  via : Via
  slot : Fin 64
  pa : BitVec 56
  data : Line := 0
  /-- Byte mask of WrPtl, control word of Atom. -/
  oparg : BitVec 64 := 0
  bittern : Bool := false
  ecc : Ecc := .clean
  deriving DecidableEq, Repr

/-- A response to a line's home. -/
structure HomeRsp where
  via : Via
  slot : Fin 64
  pa : BitVec 56
  data : Line := 0
  dirty : Bool := false
  bittern : Bool := false
  deriving DecidableEq, Repr

/-- Whom a snoop names as its target (R125). -/
inductive Tgt where
  | home
  | tile (t : Fin 32)
  | node (n : BitVec 12) (tag inc : BitVec 16)
  deriving DecidableEq, Repr

/-- A message to a caching agent: a snoop or a grant. In a packet the fields are the header's. -/
structure AgentMsg where
  agent : CAgent
  via : Option Hdr := none
  slot : Fin 64
  pa : BitVec 56
  target : Tgt := .home
  data : Line := 0
  bittern : Bool := false
  /-- The tile incarnation the message is addressed to (R227). -/
  inc : Option (BitVec 16) := none
  deriving DecidableEq, Repr

/-- A CXL.mem request of a host (R128, R393): the port, the host's BI-ID, the host physical address. `ns` is the time
since the agent's token bucket was last brought up to date (R402). -/
structure HostReq where
  port : Fin 24
  biId : BitVec 12
  hpa : BitVec 64
  data : Line := 0
  mask : BitVec 64 := 0
  poison : Bool := false
  ns : Nat := 0
  ecc : Ecc := .clean
  deriving DecidableEq, Repr

/-- The MetaValue of a CXL.mem request. -/
inductive Meta where
  | i | s | a
  deriving DecidableEq, Repr

/-- What an engine step meets while it runs: uncorrectable and correctable lines (by physical line number), and
nanoseconds of stall by cause code (R89). -/
structure EngIn where
  ue : List Nat := []
  ce : List Nat := []
  stall : List (Fin 9 × Nat) := []
  /-- Layers of the lines with errors, where the command tells (R452). -/
  layers : List (Nat × Fin 13) := []
  deriving DecidableEq, Repr

/-- An access to a lower tier that a thread has outstanding (R86, R229). -/
inductive Tier where
  | far (port : Fin 24)
  | peer (node : BitVec 12)
  | host (agent : BitVec 8)
  deriving DecidableEq, Repr

/-- A request on a management endpoint (R521): whether it came inside an SPDM secured session, and its tag. -/
structure MgtReq where
  secured : Bool
  tag : BitVec 16
  deriving DecidableEq, Repr

/-- What a signed command carries (R476): its nonce and whether the Slosin issued it within the last 60 s, TARGET_UID, how
and under which slot it is signed, and the signatures. -/
structure SigCmd where
  secured : Bool
  fresh : Bool
  nonce : BitVec 256
  uid : BitVec 64
  alg : BitVec 8
  slot : BitVec 8
  ecdsa : List Byte
  mldsa : List Byte
  deriving DecidableEq, Repr

/-- Who makes an SPDM or report request (R472): a host through its DOE mailbox, or management. -/
inductive Requester where
  | doe (port : Fin 24) (reqId : BitVec 16)
  | mgmt (secured : Bool)
  deriving DecidableEq, Repr

/-- Frequencies counted over a vote window (R410), each as its deviation in ppm from its nominal; none for no edges. -/
structure XrefVote where
  a : Option Int
  b : Option Int
  lf : Option Int
  iro : Option Int
  aorc : Option Int
  deriving DecidableEq, Repr

/-- What a port finds when it trains (R394 to R396): lanes that fail (port of the bond, lane), a step that fails, the
highest common rate (1 to 4) and 256B Flit mode with a CXL partner, a partner of R391, the far end's identity and whether
its authentication succeeds. -/
structure TrainIn where
  bad : List (Fin 4 × Fin 9) := []
  fail : Bool := false
  rate : BitVec 3 := 4
  flit256 : Bool := true
  unsupported : Bool := false
  farNode : BitVec 12 := 0
  farPort : BitVec 8 := 0
  authOk : Bool := true
  deriving DecidableEq, Repr

/-- The class of a detected transient error (R449). -/
inductive ErrClass where
  | scratch
  /-- Dirty data of the line cache: the pool address of its line. -/
  | lineCache (pa : BitVec 56)
  | context | vector | accumulator | hash | noc | link | inconsistent
  deriving DecidableEq, Repr

/-- An error that a scrub meets: the physical line, its layer, and whether it is uncorrectable (R451). -/
structure ScrubErr where
  line : Nat
  layer : Fin 13
  ue : Bool
  deriving DecidableEq, Repr

/-- A route that the master computed (R540): the node that loads it, the destination, and the FAB_ROUTE value. -/
structure RouteOp where
  node : BitVec 12
  dst : BitVec 12
  value : BitVec 64
  deriving DecidableEq, Repr

/-- The commands. -/
inductive Instr where
  -- chapter 0, 2: registers, resets, image, deltas
  | registerWrite (src : Src) (a : RegAcc)
  | badSizeAccess (write : Bool) (addr : BitVec 64)
  | brlWrite (src : Src) (a : RegAcc)
  | imageRead
  | deltaData (m : MgtReq) (offset : BitVec 32) (bytes : List Byte)
  | deltaEnd (m : MgtReq) (len : BitVec 32) (entropyOk : Bool)
  | deltaDrainDone
  | deltaDrainTimeout
  | deltaMarkingDone
  -- chapter 3: pool memory
  | expanderEnumeration (found : List (Fin 24 × Option (BitVec 43)))
  | heatEpochEnd (slot : Fin 64)
  | heatClear (src : Src) (slot : Fin 64)
  | nwFillDone (page : Nat)
  | tierAccessDone (id : Nat)
  | tierLate (id : Nat) (ns : Nat)
  | accessTimeout (id : Nat)
  | farAccessFailed (port : Fin 24)
  | expanderReturn (port : Fin 24) (capacity : BitVec 43)
  | migrationBatchDrained (d : Nat)
  | migrationCopyDone (d : Nat) (ue : List Nat)
  -- chapter 4: harvests and bittern
  | harvestDeclare (d : Nat)
  | harvestPublish (d : Nat)
  | harvestCut (slot : Fin 64) (base : BitVec 56)
  | harvestOpen (d : Nat)
  | harvestClose (d : Nat)
  | harvestCloseDrained (slot : Fin 64) (hvid : BitVec 16)
  | harvestRetire (d : Nat)
  | harvestUndeclare (d : Nat)
  | versionCopyDone (page : Nat) (ue : List Nat)
  | exhaustWriteResume (page : Nat)
  | beat (src : Src) (slot : Fin 64) (agent : BitVec 8)
  | heartbeatTimeout (slot : Fin 64) (agent : BitVec 8)
  | resume (src : Src) (slot : Fin 64) (job : BitVec 16)
  -- chapter 5: coherence
  | cacheLoad (agent : CAgent) (slot : Fin 64) (pa : BitVec 56)
  | cacheStore (agent : CAgent) (slot : Fin 64) (pa : BitVec 56) (data : Line) (mask : BitVec 64)
  | cacheEvict (agent : CAgent) (slot : Fin 64) (pa : BitVec 56)
  | rdS (m : HomeMsg)
  | rdX (m : HomeMsg)
  | upg (m : HomeMsg)
  | wb (m : HomeMsg)
  | evE (m : HomeMsg)
  | evF (m : HomeMsg)
  | rdCur (m : HomeMsg)
  | wrFull (m : HomeMsg)
  | wrPtl (m : HomeMsg)
  | atom (m : HomeMsg)
  | snpS (m : AgentMsg)
  | snpX (m : AgentMsg)
  | snpInv (m : AgentMsg)
  | snpCur (m : AgentMsg)
  | dataF (m : AgentMsg)
  | dataE (m : AgentMsg)
  | dataM (m : AgentMsg)
  | cmp (m : AgentMsg)
  | wbAck (m : AgentMsg)
  | invAck (m : HomeRsp)
  | rspFwd (m : HomeRsp)
  | rspFwdWb (m : HomeRsp)
  | rspData (m : HomeRsp)
  | fin (m : HomeRsp)
  | snoopTimeout (slot : Fin 64) (pa : BitVec 56)
  | tileSnoopTimeout (slot : Fin 64) (pa : BitVec 56) (t : Fin 32)
  | memRdData (r : HostReq)
  | memRd (r : HostReq) (metaState : Bool) (mv : Meta)
  | memInv (r : HostReq) (nt : Bool) (mv : Meta)
  | memSpecRd (r : HostReq)
  | memWr (r : HostReq) (full : Bool) (mv : Meta)
  | biRspI (r : HostReq) (block : Bool)
  | biRspS (r : HostReq) (block : Bool)
  | biRspE (r : HostReq) (block : Bool)
  | biConflict (r : HostReq)
  | configRequest (port : Fin 24)
  | agentDown (h : Hdr)
  | cacheInval (d : Nat)
  | hostInval (d : Nat)
  -- chapter 6: the fabric
  | dataFlit (port : Fin 24) (raw : BitVec 2048) (fecOk : Bool)
  | idleFlit (port : Fin 24) (raw : BitVec 2048) (fecOk : Bool)
  | nakFlit (port : Fin 24) (raw : BitVec 2048) (fecOk : Bool)
  | auditFlit (port : Fin 24) (raw : BitVec 2048) (fecOk : Bool) (sums : List (Fin 41 × Nat))
  | auditFlitTimer (port : Fin 24)
  | linkSilence (port : Fin 24)
  | reconcile (port : Fin 24) (h : Hdr)
  | reconcileTimeout (port : Fin 24)
  | bulkRd (h : Hdr)
  | bulkWr (p : Pkt)
  | bulkData (p : Pkt)
  | wrCmp (h : Hdr)
  | atomData (p : Pkt)
  | curData (p : Pkt)
  | nak (h : Hdr)
  | engFwd (p : Pkt)
  | engCmp (p : Pkt)
  | fence (h : Hdr)
  | fenceAck (h : Hdr)
  | fabRouteWrite (src : Src) (d : BitVec 12) (a : RegAcc)
  | routeSet (p : Pkt)
  | incarnation (h : Hdr)
  | jobStop (h : Hdr)
  | heartbeat (h : Hdr)
  | heartbeatSend
  | heartbeatMiss (node : BitVec 12) (linksDown : Bool)
  | nodeDown (node : BitVec 12) (via : Option Hdr)
  | poolEvent (p : Pkt)
  | hotlineWindowEnd
  | managementResend
  -- chapter 7: sluices
  | sluiceEnable (src : Src) (k : BitVec 16) (value : BitVec 64)
  | sluiceDisable (src : Src) (k : BitVec 16) (value : BitVec 64)
  | sqDoorbell (src : Src) (k : BitVec 16) (value : BitVec 64)
  | cqDoorbell (src : Src) (k : BitVec 16) (value : BitVec 64)
  | slcIrqWrite (src : Src) (k : BitVec 16) (value : BitVec 64)
  | glbFeatAcceptWrite (src : Src) (k : Fin 4) (a : RegAcc)
  | descriptorFetch
  | sluiceAging (k : BitVec 16)
  | fetchReturn (k : BitVec 16) (slots : List (BitVec 512)) (failAt : Option Nat)
  | descriptorStart (d : Nat)
  | descriptorComplete (d : Nat)
  | irqTimer (k : BitVec 16)
  -- chapter 8: translation
  | asidCreate (src : Src) (slot : Fin 64) (a : RegAcc)
  | asidDestroy (src : Src) (slot : Fin 64) (a : RegAcc)
  | invalDrain (src : Src) (slot : Fin 64) (a : RegAcc)
  | invalAbort (src : Src) (slot : Fin 64) (a : RegAcc)
  | reroot (src : Src) (slot : Fin 64) (a : RegAcc)
  | invalComplete (asid : BitVec 16)
  | walkDone (asid : BitVec 16) (va : BitVec 48) (ents : List (BitVec 64))
  | xstoreRoom (d : Nat) (ns : Nat)
  -- chapter 11: the Reduce engine
  | accumulate (d : Nat) (inp : EngIn)
  | reduceScatter (d : Nat) (inp : EngIn)
  | allreduce (d : Nat) (inp : EngIn)
  | mergeApply (d : Nat) (inp : EngIn)
  | run (d : Nat) (inp : EngIn)
  | collJoin (p : Pkt)
  | collArm (p : Pkt)
  | partialAcc (p : Pkt)
  | rearm (p : Pkt)
  | collDone (p : Pkt)
  | collAbort (p : Pkt)
  | collectiveTimeout (d : Nat)
  -- chapter 12: the Gather engine
  | gather (d : Nat) (inp : EngIn)
  | pool (d : Nat) (inp : EngIn)
  | scatterMerge (d : Nat) (inp : EngIn)
  | gatherPrefetch (d : Nat) (inp : EngIn)
  -- chapter 9: pans
  | pieceStart (d : Nat) (pan : BitVec 12) (lines : List Nat) (accs : List Tier)
  | threadReady (piece : Nat)
  | blockCommit (piece : Nat) (last : Bool)
  | transientError (d : Nat) (unit : Nat) (cls : ErrClass) (pan : BitVec 12) (temp : BitVec 8)
  | replay (d : Nat) (unit : Nat)
  | spareSwitched (pan : BitVec 12) (good : Bool)
  | panStallTimeout (pan : BitVec 12)
  | strikeExpiry (pan : BitVec 12)
  | selftestStart (t : Fin 32)
  | selftestEnd (t : Fin 32) (failing : List (Fin 128))
  -- chapters 13 to 15: Rake, Attend, Move, Check
  | search (d : Nat) (inp : EngIn)
  | deadlineExpiry (d : Nat)
  | rakeAppend (d : Nat) (inp : EngIn)
  | rakeDelete (d : Nat) (inp : EngIn)
  | attend (d : Nat) (inp : EngIn)
  | fill (d : Nat) (inp : EngIn)
  | copy (d : Nat) (inp : EngIn)
  | migrate (d : Nat) (inp : EngIn)
  | movePrefetch (d : Nat) (inp : EngIn)
  | advise (d : Nat) (inp : EngIn)
  | heatSnapshot (d : Nat) (inp : EngIn)
  | compare (d : Nat) (inp : EngIn)
  | checksum (d : Nat) (inp : EngIn)
  | contentHash (d : Nat) (inp : EngIn)
  | scrub (d : Nat) (inp : EngIn)
  -- chapter 16: ports
  | portTraining (port : Fin 24) (t : TrainIn)
  | trainingRetry (port : Fin 24) (t : TrainIn)
  | peerAuthRetry (port : Fin 24) (t : TrainIn)
  | laneLoss (port : Fin 24) (off : Fin 4) (lane : Fin 9) (lock : Bool)
  | laneRebuilt (port : Fin 24)
  | x4RetrainDone (port : Fin 24)
  | pcieRecoveryDone (port : Fin 24)
  | eyeMeasurement (port : Fin 24) (eyes : List (Fin 9 × BitVec 8 × BitVec 8))
  | retrain (src : Src) (port : Fin 24) (value : BitVec 64)
  | marginNow (src : Src) (port : Fin 24) (value : BitVec 64) (eyes : List (Fin 9 × BitVec 8 × BitVec 8))
  | perstAssert (port : Fin 24)
  | perstRelease (port : Fin 24)
  | rateHoldRelease (port : Fin 24)
  | agentEntryWrite (src : Src) (port : Fin 24) (k : Fin 16) (a : RegAcc)
  | hdmCommit (port : Fin 24) (k : Fin 16) (base size : BitVec 64) (ways : BitVec 8)
  | portUp (port : Fin 24)
  | conventionalReset (port : Fin 24)
  -- chapter 17: clocks and power
  | clockStartTimeout
  | lfrefWindow (ppm : Option Int)
  | lfrefEdgeLoss
  | iroWindow (ppm : Option Int)
  | xrefVoteWindow (v : XrefVote)
  | xrefEdgeLoss (b : Bool)
  | holdRetry (v : XrefVote) (iro : Option Int)
  | returnMain (src : Src) (value : BitVec 64)
  | iroTrimEnd
  | mainPllLocked
  | tileGate (t : Fin 32)
  | tileGated (t : Fin 32)
  | tileWake (t : Fin 32)
  | tileWakeDone (t : Fin 32)
  | pwrWakeWrite (src : Src) (value : BitVec 64)
  | vaultSelfRefresh (t : Fin 32)
  | selfRefreshExit (t : Fin 32)
  | governorSample (mw : Nat)
  | governorRaise
  | powerCalibration (mw : Nat) (read : Bool)
  | thermalLoop (logic dram : Int)
  | burstCharge
  | renew (src : Src) (value : BitVec 64)
  -- chapter 18: the package
  | pwrgdAonRise (strapId : BitVec 10) (mcap : Bool) (boot i3c : BitVec 2)
  | pwrgdAonFall
  | coldReset
  | warmReset (m : MgtReq)
  | pwrgdMainRise
  | railPowerGood (rail : Fin 6)
  | railTimeout (rail : Fin 6)
  | sequenceRetry
  | mainPowerLoss (retained : Bool)
  | thermalTrip (logic dram : Int)
  | pmbAlert (rail : Fin 6) (status : BitVec 16) (read : Bool)
  -- chapter 19: reliability
  | patrolScrubPass (found : List ScrubErr) (newHour newSecond : Bool)
  | layerSpareNow (src : Src) (value : BitVec 64)
  | layerCopyDone (ue : List Nat)
  | configGoldenCheck (fixed : Nat) (goldenBad : Bool)
  | conservationAudit (fails : List (BitVec 8 × BitVec 8))
  | failCmd (src : Src) (value : BitVec 64)
  | panClear (src : Src) (value : BitVec 64)
  | aorcFail
  -- chapter 20: security
  | slotWrite (c : SigCmd) (slot : BitVec 8) (ecdsa mldsa : List Byte)
  | slotRevoke (c : SigCmd) (slot : BitVec 8)
  | setRequirePq (c : SigCmd)
  | debugUnlock (c : SigCmd)
  | getMeasurements (r : Requester) (index : BitVec 8)
  | keyExchange (r : Requester)
  -- chapter 21: Beryl
  | meterTick
  | meterTokens (slot : Fin 64) (us : List (Fin 6 × Nat)) (lines : Nat)
  | checkpoint
  | berylPowerUp (fw : List Byte)
  | berylWatchdog
  | berylRestartDone
  | setCivilTime (year : BitVec 16) (month day hour minute second : BitVec 8) (ms : BitVec 16)
  | periodicReport (slot : Fin 64)
  | onDemand (r : Requester) (slot : Fin 64)
  | reportPushRetry
  | reportRead (m : MgtReq) (seq : BitVec 64) (count : BitVec 8)
  | reportAck (m : MgtReq) (seq : BitVec 64)
  | journalExtract (m : MgtReq) (first : BitVec 64) (count : BitVec 8)
  -- chapter 22: management
  | chargeHeartbeat (east : Bool) (epoch : BitVec 32)
  | chargeWatchdog
  | takeover
  | stateCopy (crcOk : Bool)
  | standbyMasterTakeover
  | regRead (m : MgtReq) (addr : BitVec 64) (count : BitVec 8)
  | regWrite (m : MgtReq) (addr : BitVec 64) (value : BitVec 64)
  | eventSubscribe (m : MgtReq) (beryl : Bool) (eid : BitVec 8) (slot : BitVec 8)
  | eventRead (m : MgtReq) (seq : BitVec 64) (count : BitVec 8)
  | eventAck (m : MgtReq) (seq : BitVec 64)
  | lrRead (m : MgtReq) (off len : BitVec 32)
  | marginSweep (m : MgtReq) (mask : BitVec 32)
  | fwRestart (m : MgtReq)
  | restartWrite (src : Src) (value : BitVec 64)
  | failover (m : MgtReq)
  | mgtFwFailover (src : Src) (value : BitVec 64)
  | seqRetry (m : MgtReq)
  | retainSeal (m : MgtReq) (cmpId : BitVec 16)
  | retainAssert (m : MgtReq) (cmpId inc : BitVec 16) (digest : List Byte)
  | sealHashDone (cmpId : BitVec 16)
  | mctpControl (beryl : Bool) (kind : BitVec 8) (data : List Byte)
  | pldmMonitoring (readings : List Byte)
  | pldmFirmwareUpdate (component : Fin 4) (bytes : List Byte)
  | stickySample
  | eventPushRetry
  | summaryWrite (secs : Nat) (logic dram : Int)
  | mirrorSync (done : Bool)
  | marginPeriod
  | marginSlot (results : List (Fin 32 × Bool))
  -- chapter 23: start-up and pool formation
  | onyxFirmwareStart (wOk eOk primaryOk mirrorOk : Bool)
  | powerOnSelfTest (failing : List (Fin 32 × Fin 130)) (otherFail : Bool)
  | elect (port : Fin 24) (h : Hdr)
  | electionConcluded (entropyOk : Bool)
  | probe (port : Fin 24) (h : Hdr)
  | discoveryEnd (routes : List RouteOp) (entropyOk : Bool)
  | formed (port : Fin 24) (h : Hdr) (entropyOk : Bool)
  | formTimeout
  | electResend
  | joinReq (port : Fin 24) (h : Hdr) (routes : List RouteOp)
  | retainHashDone (slot : Fin 64) (entropyOk : Bool)
  | expanderRetainDeadline (port : Fin 24)
  deriving DecidableEq, Repr

end Sys2Proof
end

