-- ==== Sys2Proof/Decode.lean ====
section
/-! DEFINITION. The commands that a word of the table spells. -/

namespace Sys2Proof

/-- The command that the bits of a table row spell. The table gives none of its rows any bits (each row's fields are empty:
a row is a register access, a message, a pin or a lapse of time), so no word spells a command (assumption 41). -/
def decodeTableWord (_nbits _w : Nat) : Option Instr := none

end Sys2Proof
end

