-- ==== Sys2Proof/Machine/Crc.lean ====
section
/-! DEFINITION. The cyclic redundancy codes that the block computes (R381). -/

namespace Sys2Proof.Machine

/-- One bit of a reflected CRC with polynomial `p`. -/
def crcBit (p c : Nat) : Nat := if c % 2 = 1 then (c / 2) ^^^ p else c / 2

/-- One byte of a reflected CRC. -/
def crcByte (p c : Nat) (b : Byte) : Nat := (List.range 8).foldl (fun x _ => crcBit p x) (c ^^^ b.toNat)

/-- CRC-32C: reflected, polynomial 0x1EDC6F41, start and final complement all ones. -/
def crc32c (bs : List Byte) : Nat := bs.foldl (crcByte 0x82F63B78) 0xFFFFFFFF ^^^ 0xFFFFFFFF

/-- A CRC of a range continued from `init`: the register starts at its complement (R381). -/
def crcFrom (p w init : Nat) (bs : List Byte) : Nat :=
  let ones := 2 ^ w - 1
  bs.foldl (crcByte p) (init % 2 ^ w ^^^ ones) ^^^ ones

/-- The reflected polynomials of CRC-32C and CRC-64/XZ. -/
def polyCrc32c : Nat := 0x82F63B78
/-- See `polyCrc32c`. -/
def polyCrc64 : Nat := 0xC96C5795D7870F42

end Sys2Proof.Machine
end

