-- ==== Sys2Proof/Machine/Float.lean ====
section
/-! DEFINITION. Number formats and arithmetic (chapter 10): decoding, the one rounding of every conversion, binary32
arithmetic, MX blocks, the counter generator, the exact accumulator and its exchange forms. Exact values are
(-1)^neg · m · 2^e over the integers. -/

namespace Sys2Proof.Machine

/-! ### Flags (R248, R261) -/

def fINV : Nat := 1
def fDZ : Nat := 2
def fOVF : Nat := 4
def fUNF : Nat := 8
def fNF : Nat := 16

/-- A floating value: NaN (signalling or not), infinity, or an exact finite number. -/
inductive FV where
  | nan (sig : Bool)
  | inf (neg : Bool)
  | fin (neg : Bool) (m : Nat) (e : Int)
  deriving DecidableEq, Repr

/-- What a format has for special values (R252). -/
inductive FKind where
  | ieee | e4m3 | none
  deriving DecidableEq, Repr

/-- A scalar floating-point format (R252). -/
structure Fmt where
  ebits : Nat
  fbits : Nat
  bias : Nat
  kind : FKind
  /-- It has signalling NaNs (R253). -/
  sig : Bool
  deriving DecidableEq, Repr

def b32 : Fmt := ⟨8, 23, 127, .ieee, true⟩
def b16 : Fmt := ⟨5, 10, 15, .ieee, true⟩
def bf16 : Fmt := ⟨8, 7, 127, .ieee, true⟩
def e4m3 : Fmt := ⟨4, 3, 7, .e4m3, false⟩
def e5m2 : Fmt := ⟨5, 2, 15, .ieee, false⟩
def e3m2 : Fmt := ⟨3, 2, 3, .none, false⟩
def e2m3 : Fmt := ⟨2, 3, 1, .none, false⟩
def e2m1 : Fmt := ⟨2, 1, 1, .none, false⟩

/-- Width in bits. -/
def Fmt.width (f : Fmt) : Nat := f.ebits + f.fbits + 1

/-- The exponent of a subnormal's unit. -/
def Fmt.qmin (f : Fmt) : Int := 1 - (f.bias : Int) - f.fbits

/-- Significand and exponent of the largest finite value. -/
def Fmt.maxFin (f : Fmt) : Nat × Int :=
  match f.kind with
  | .ieee => (2 ^ (f.fbits + 1) - 1, (2 ^ f.ebits - 2 : Int) - f.bias - f.fbits)
  | .e4m3 => (2 ^ (f.fbits + 1) - 2, (2 ^ f.ebits - 1 : Int) - f.bias - f.fbits)
  | .none => (2 ^ (f.fbits + 1) - 1, (2 ^ f.ebits - 1 : Int) - f.bias - f.fbits)

/-- The canonical NaN (R253). -/
def Fmt.nanBits (f : Fmt) : Nat :=
  match f.kind with
  | .ieee => (2 ^ f.ebits - 1) * 2 ^ f.fbits + 2 ^ (f.fbits - 1)
  | .e4m3 => 0x7F
  | .none => 0

/-- Put a sign on magnitude bits. -/
def Fmt.sign (f : Fmt) (neg : Bool) (b : Nat) : Nat := b2n neg * 2 ^ (f.ebits + f.fbits) + b

/-- Decode (R252, R253). -/
def fdec (f : Fmt) (b : Nat) : FV :=
  let neg := bitAt b (f.ebits + f.fbits)
  let ex := bitsOf b f.fbits f.ebits
  let fr := bitsOf b 0 f.fbits
  let top := 2 ^ f.ebits - 1
  if f.kind = .ieee && ex = top then
    if fr = 0 then .inf neg else .nan (f.sig && !bitAt fr (f.fbits - 1))
  else if f.kind = .e4m3 && ex = top && fr = 2 ^ f.fbits - 1 then .nan false
  else if ex = 0 then .fin neg fr f.qmin
  else .fin neg (2 ^ f.fbits + fr) ((ex : Int) - f.bias - f.fbits)

/-- Number of bits of a natural number. -/
def bitLen (n : Nat) : Nat := if n = 0 then 0 else Nat.log2 n + 1

/-- Compare m·2^e with n·2^g: less than. -/
def dlt (m : Nat) (e : Int) (n : Nat) (g : Int) : Bool :=
  if e ≤ g then m < n * 2 ^ (g - e).toNat else m * 2 ^ (e - g).toNat < n

/-- Round up? Modes of R259: 0 nearest even, 1 toward zero, 2 stochastic with 32 random bits (R263). `lo` is the kept
part, `rem` the part below it of `s` bits, `sticky` whether anything non-zero lies below that. -/
def roundUp (mode lo rem s : Nat) (sticky : Bool) (r : Nat) : Bool :=
  match mode with
  | 0 => let half := 2 ^ (s - 1)
         s > 0 && (rem > half || (rem = half && (sticky || lo % 2 = 1)))
  | 1 => false
  | _ => s > 0 && rem * 2 ^ 32 / 2 ^ s + r ≥ 2 ^ 32 && (rem > 0)

/-- Encode a significand at a unit exponent that fits the format. -/
def encodeFin (f : Fmt) (sig : Nat) (q : Int) : Nat :=
  let (sig, q) := if sig ≥ 2 ^ (f.fbits + 1) then (sig / 2, q + 1) else (sig, q)
  if sig < 2 ^ f.fbits then sig
  else (q + f.fbits + f.bias).toNat * 2 ^ f.fbits + (sig - 2 ^ f.fbits)

/-- Round an exact finite magnitude m·2^e (plus something smaller than its unit when `sticky`) into a format:
bits and flags (R259 to R261). -/
def roundMag (f : Fmt) (mode : Nat) (r : Nat) (neg : Bool) (m : Nat) (e : Int) (sticky : Bool) : Nat × Nat :=
  if m = 0 && !sticky then (f.sign neg 0, 0) else
  let q0 : Int := e + bitLen m - 1 - f.fbits
  let q := if q0 < f.qmin then f.qmin else q0
  let s := (q - e).toNat
  let (lo, rem) := if q ≤ e then (m * 2 ^ (e - q).toNat, 0) else (m / 2 ^ s, m % 2 ^ s)
  let exact := rem = 0 && !sticky
  let up := roundUp mode lo rem s sticky r
  let sig := lo + b2n up
  let (xm, xq) := f.maxFin
  let tooBig := if mode = 2 then dlt xm xq m e || (sticky && !dlt m e xm xq) else dlt xm xq sig q
  if tooBig then
    let big := encodeFin f xm xq
    match f.kind with
    | .ieee => if mode = 1 then (f.sign neg big, fOVF) else (f.sign neg ((2 ^ f.ebits - 1) * 2 ^ f.fbits), fOVF)
    | _ => (f.sign neg big, fOVF)
  else
    let unf := !exact && dlt m e 1 (1 - (f.bias : Int))
    (f.sign neg (encodeFin f sig q), if unf then fUNF else 0)

/-- Write a value in a floating format (R258 to R261). -/
def fenc (f : Fmt) (mode r : Nat) : FV → Nat × Nat
  | .nan sig =>
    let i := if sig then fINV else 0
    match f.kind with
    | .none => (0, fINV)
    | _ => (f.nanBits, i)
  | .inf neg =>
    match f.kind with
    | .ieee => (f.sign neg ((2 ^ f.ebits - 1) * 2 ^ f.fbits), 0)
    | _ => (f.sign neg (encodeFin f f.maxFin.1 f.maxFin.2), fOVF)
  | .fin neg m e => roundMag f mode r neg m e false

/-- Round a magnitude to an integer. -/
def roundInt (mode r m : Nat) (e : Int) : Nat :=
  if 0 ≤ e then m * 2 ^ e.toNat
  else
    let s := (-e).toNat
    let lo := m / 2 ^ s
    lo + b2n (roundUp mode lo (m % 2 ^ s) s false r)

/-- Write a value as a two's-complement integer of `w` bits: round, then saturate (R258, R260). -/
def encInt (w : Nat) (mode r : Nat) : FV → Nat × Nat
  | .nan _ => (0, fINV)
  | .inf neg => (if neg then 2 ^ (w - 1) else 2 ^ (w - 1) - 1, fOVF)
  | .fin neg m e =>
    let n := roundInt mode r m e
    if neg then
      if n > 2 ^ (w - 1) then (2 ^ (w - 1), fOVF) else ((2 ^ w - n) % 2 ^ w, 0)
    else if n ≥ 2 ^ (w - 1) then (2 ^ (w - 1) - 1, fOVF) else (n, 0)

/-- A two's-complement integer of `w` bits. -/
def toInt (w b : Nat) : Int := if b % 2 ^ w ≥ 2 ^ (w - 1) then (b % 2 ^ w : Int) - 2 ^ w else b % 2 ^ w

/-- An integer as an exact value. -/
def fvInt (i : Int) : FV := .fin (i < 0) i.natAbs 0

/-- Saturate an integer into `w` bits. -/
def satInt (w : Nat) (i : Int) : Nat × Nat :=
  if i < -(2 ^ (w - 1) : Int) then (2 ^ (w - 1), fOVF)
  else if i ≥ 2 ^ (w - 1) then (2 ^ (w - 1) - 1, fOVF)
  else ((i % 2 ^ w).toNat, 0)

/-! ### binary32 arithmetic (R266): every result correctly rounded to nearest even -/

/-- The canonical quiet NaN. -/
def qnan : Nat := 0x7FC00000

/-- A signalling NaN is among the operands. -/
def anySig (l : List FV) : Nat := if l.any (fun v => v == .nan true) then fINV else 0

/-- Exact sum of two finite values as a signed integer at an exponent. -/
def dsum (n1 : Bool) (m1 : Nat) (e1 : Int) (n2 : Bool) (m2 : Nat) (e2 : Int) : Int × Int :=
  let e := min e1 e2
  let a : Int := m1 * 2 ^ (e1 - e).toNat
  let b : Int := m2 * 2 ^ (e2 - e).toNat
  ((if n1 then -a else a) + (if n2 then -b else b), e)

/-- Sum of two values with the zero-sign rule of IEEE 754. -/
def addV (x y : FV) : Nat × Nat :=
  match x, y with
  | .nan _, _ | _, .nan _ => (qnan, 0)
  | .inf a, .inf b => if a = b then (b32.sign a 0x7F800000, 0) else (qnan, fINV)
  | .inf a, _ => (b32.sign a 0x7F800000, 0)
  | _, .inf b => (b32.sign b 0x7F800000, 0)
  | .fin n1 m1 e1, .fin n2 m2 e2 =>
    let (i, e) := dsum n1 m1 e1 n2 m2 e2
    if i = 0 then (b32.sign (n1 && n2) 0, 0)
    else roundMag b32 0 0 (i < 0) i.natAbs e false

/-- Product of two values, exact. -/
def mulV (x y : FV) : FV × Nat :=
  match x, y with
  | .nan _, _ | _, .nan _ => (.nan false, 0)
  | .inf a, .inf b => (.inf (a != b), 0)
  | .inf a, .fin b m _ => if m = 0 then (.nan false, fINV) else (.inf (a != b), 0)
  | .fin a m _, .inf b => if m = 0 then (.nan false, fINV) else (.inf (a != b), 0)
  | .fin a m1 e1, .fin b m2 e2 => (.fin (a != b) (m1 * m2) (e1 + e2), 0)

/-- Negate. -/
def negV : FV → FV
  | .nan s => .nan s
  | .inf n => .inf (!n)
  | .fin n m e => .fin (!n) m e

def fadd32 (a b : Nat) : Nat × Nat :=
  let x := fdec b32 a; let y := fdec b32 b
  let (v, fl) := addV x y
  (v, fl ||| anySig [x, y])

def fsub32 (a b : Nat) : Nat × Nat :=
  let x := fdec b32 a; let y := fdec b32 b
  let (v, fl) := addV x (negV y)
  (v, fl ||| anySig [x, y])

def fmul32 (a b : Nat) : Nat × Nat :=
  let x := fdec b32 a; let y := fdec b32 b
  let (p, fl) := mulV x y
  let (v, fl2) := fenc b32 0 0 p
  (v, fl ||| fl2 ||| anySig [x, y])

/-- A × B + C with one rounding; `neg` negates the product (FNMA). -/
def ffma32 (neg : Bool) (a b c : Nat) : Nat × Nat :=
  let x := fdec b32 a; let y := fdec b32 b; let z := fdec b32 c
  let (p, fl) := mulV x y
  let p := if neg then negV p else p
  let (v, fl2) := addV p z
  (v, fl ||| fl2 ||| anySig [x, y, z])

/-- Quotient of two magnitudes to 40 bits and a sticky bit. -/
def divMag (m1 : Nat) (e1 : Int) (m2 : Nat) (e2 : Int) : Nat × Int × Bool :=
  let k := 40 + bitLen m2
  (m1 * 2 ^ k / m2, e1 - e2 - k, m1 * 2 ^ k % m2 ≠ 0)

/-- A ÷ B in a rounding mode. -/
def divV (mode : Nat) (x y : FV) : Nat × Nat :=
  match x, y with
  | .nan _, _ | _, .nan _ => (qnan, 0)
  | .inf _, .inf _ => (qnan, fINV)
  | .inf a, .fin b _ _ => (b32.sign (a != b) 0x7F800000, 0)
  | .fin a _ _, .inf b => (b32.sign (a != b) 0, 0)
  | .fin a m1 e1, .fin b m2 e2 =>
    if m2 = 0 then
      if m1 = 0 then (qnan, fINV) else (b32.sign (a != b) 0x7F800000, fDZ)
    else
      let (q, e, st) := divMag m1 e1 m2 e2
      roundMag b32 mode 0 (a != b) q e st

def fdiv32 (a b : Nat) : Nat × Nat :=
  let x := fdec b32 a; let y := fdec b32 b
  let (v, fl) := divV 0 x y
  (v, fl ||| anySig [x, y])

/-- Integer square root, bit by bit from bit `k` down. -/
def isqrtGo (n : Nat) : Nat → Nat → Nat
  | 0, r => r
  | k + 1, r => let t := r + 2 ^ k; isqrtGo n k (if t * t ≤ n then t else r)

/-- Integer square root. -/
def isqrt (n : Nat) : Nat := isqrtGo n (bitLen n / 2 + 1) 0

/-- Square root of a magnitude to at least 40 bits and a sticky bit. -/
def sqrtMag (m : Nat) (e : Int) : Nat × Int × Bool :=
  let (m, e) := if e % 2 = 0 then (m, e) else (m * 2, e - 1)
  let n := m * 2 ^ 100
  let r := isqrt n
  (r, e / 2 - 50, r * r ≠ n)

def fsqrt32 (a : Nat) : Nat × Nat :=
  match fdec b32 a with
  | .nan s => (qnan, if s then fINV else 0)
  | .inf false => (0x7F800000, 0)
  | .inf true => (qnan, fINV)
  | .fin neg m e =>
    if m = 0 then (b32.sign neg 0, 0)
    else if neg then (qnan, fINV)
    else let (r, g, st) := sqrtMag m e; roundMag b32 0 0 false r g st

/-! ### The functions that round toward zero (R267) -/

def frcp32 (a : Nat) : Nat × Nat :=
  let x := fdec b32 a
  let (v, fl) := divV 1 (.fin false 1 0) x
  (v, fl ||| anySig [x])

def frsqrt32 (a : Nat) : Nat × Nat :=
  match fdec b32 a with
  | .nan s => (qnan, if s then fINV else 0)
  | .inf false => (0, 0)
  | .inf true => (qnan, fINV)
  | .fin neg m e =>
    if m = 0 then (b32.sign neg 0x7F800000, fDZ)
    else if neg then (qnan, fINV)
    else
      let (m, e) := if e % 2 = 0 then (m, e) else (m * 2, e - 1)
      let t := 2 ^ 240 / m
      let r := isqrt t
      roundMag b32 1 0 false r (-(e / 2) - 120) (r * r * m ≠ 2 ^ 240)

/-- ln 2 in units of 2^-p. -/
def ln2Fix (p : Nat) : Nat := (List.range (p + 8)).foldl (fun a k => a + 2 ^ (p + 16) / ((k + 1) * 2 ^ (k + 1))) 0 / 2 ^ 16

/-- Terms of the exponential series from `t` on, in units of 2^-p. -/
def expGo (p x : Nat) : Nat → Nat → Nat → Nat
  | 0, _, _ => 0
  | n + 1, k, t => if t = 0 then 0 else t + expGo p x n (k + 1) (t * x / 2 ^ p / (k + 1))

/-- e^x for x = v/2^p, 0 ≤ x < 1, in units of 2^-p. -/
def expFix (p v : Nat) : Nat := expGo p v 200 0 (2 ^ p)

/-- e^(m·2^e) with the sign, as a magnitude and exponent. -/
def expMag (p : Nat) (neg : Bool) (m : Nat) (e : Int) : Nat × Int :=
  let v : Nat := if e + p ≥ 0 then m * 2 ^ (e + p).toNat else m / 2 ^ (-(e + p)).toNat
  let l := ln2Fix p
  if neg then
    let n := v / l + 1
    (expFix p (n * l - v), -(n : Int) - p)
  else (expFix p (v % l), (v / l : Int) - p)

def fexp32 (a : Nat) : Nat × Nat :=
  match fdec b32 a with
  | .nan s => (qnan, if s then fINV else 0)
  | .inf neg => (if neg then 0 else 0x7F800000, 0)
  | .fin neg m e =>
    if m = 0 then (0x3F800000, 0)
    else if dlt 1 10 m e then
      if neg then (0, fUNF) else (0x7F7FFFFF, fOVF)
    else if dlt m e 1 (-80) then
      if neg then roundMag b32 1 0 false (2 ^ 60 - 1) (-60) true else (0x3F800000, 0)
    else let (r, g) := expMag 320 neg m e; roundMag b32 1 0 false r g true

/-- The odd series of atanh in z = v/2^p, in units of 2^-p. -/
def atanhGo (p z2 : Nat) : Nat → Nat → Nat → Nat
  | 0, _, _ => 0
  | n + 1, k, t => if t = 0 then 0 else t / (2 * k + 1) + atanhGo p z2 n (k + 1) (t * z2 / 2 ^ p)

/-- ln of f = m/2^(bitLen m − 1), 1 ≤ f < 2, in units of 2^-p. -/
def lnMant (p m : Nat) : Nat :=
  let one := 2 ^ (bitLen m - 1)
  let z := (m - one) * 2 ^ p / (m + one)
  2 * atanhGo p (z * z / 2 ^ p) 400 0 z

def flog32 (a : Nat) : Nat × Nat :=
  match fdec b32 a with
  | .nan s => (qnan, if s then fINV else 0)
  | .inf neg => if neg then (qnan, fINV) else (0x7F800000, 0)
  | .fin neg m e =>
    if m = 0 then (0xFF800000, fDZ)
    else if neg then (qnan, fINV)
    else
      let p := 320
      let ex : Int := e + bitLen m - 1
      let v : Int := ex * (ln2Fix p : Int) + (lnMant p m : Int)
      if v = 0 then (0, 0) else roundMag b32 1 0 (v < 0) v.natAbs (-320) true

def ftanh32 (a : Nat) : Nat × Nat :=
  match fdec b32 a with
  | .nan s => (qnan, if s then fINV else 0)
  | .inf neg => (b32.sign neg 0x3F800000, 0)
  | .fin neg m e =>
    if m = 0 then (b32.sign neg 0, 0)
    else if !dlt m e 1 4 then (b32.sign neg 0x3F7FFFFF, 0)
    else if dlt m e 1 (-40) then ((roundMag b32 1 0 neg (m * 2 ^ 48 - 1) (e - 48) true).1, 0)
    else
      let p := 400
      let (r, g) := expMag p false m (e + 1)
      let x := r * 2 ^ (g + p).toNat
      let one := 2 ^ p
      ((roundMag b32 1 0 neg ((x - one) * 2 ^ p / (x + one)) (-400) true).1, 0)

/-! ### Comparison, minimum and maximum (R266) -/

/-- A value as a signed integer at a common exponent: only for comparison. -/
def ltV (x y : FV) : Bool :=
  match x, y with
  | .nan _, _ | _, .nan _ => false
  | .inf a, .inf b => a && !b
  | .inf a, _ => a
  | _, .inf b => !b
  | .fin n1 m1 e1, .fin n2 m2 e2 => (dsum n1 m1 e1 (!n2) m2 e2).1 < 0

def eqV (x y : FV) : Bool :=
  match x, y with
  | .nan _, _ | _, .nan _ => false
  | .inf a, .inf b => a == b
  | .inf _, _ | _, .inf _ => false
  | .fin n1 m1 e1, .fin n2 m2 e2 => (dsum n1 m1 e1 (!n2) m2 e2).1 == 0

/-- The sign of a value. -/
def negOf : FV → Bool
  | .nan _ => false
  | .inf n => n
  | .fin n _ _ => n

/-- minimumNumber (`big` = false) and maximumNumber (`big` = true). −0 lies below +0. -/
def minmax32 (big : Bool) (a b : Nat) : Nat × Nat :=
  let x := fdec b32 a; let y := fdec b32 b
  let fl := anySig [x, y]
  match x, y with
  | .nan _, .nan _ => (qnan, fl)
  | .nan _, _ => (b, fl)
  | _, .nan _ => (a, fl)
  | _, _ =>
    let less := ltV x y || (eqV x y && negOf x && !negOf y)
    (if less != big then a else b, fl)

def fmin32 := minmax32 false
def fmax32 := minmax32 true

/-- All ones or zero. -/
def mask32 (b : Bool) : Nat := if b then 0xFFFFFFFF else 0

/-- Either operand is a NaN. -/
def isNanV : FV → Bool
  | .nan _ => true
  | _ => false

def fcmplt32 (a b : Nat) : Nat × Nat :=
  let x := fdec b32 a; let y := fdec b32 b
  (mask32 (ltV x y), if isNanV x || isNanV y then fINV else 0)

def fcmple32 (a b : Nat) : Nat × Nat :=
  let x := fdec b32 a; let y := fdec b32 b
  (mask32 (ltV x y || eqV x y), if isNanV x || isNanV y then fINV else 0)

def fcmpeq32 (a b : Nat) : Nat × Nat :=
  let x := fdec b32 a; let y := fdec b32 b
  (mask32 (eqV x y), anySig [x, y])

/-- int32 to binary32. -/
def cvtif (a : Nat) : Nat × Nat := fenc b32 0 0 (fvInt (toInt 32 a))

/-- binary32 to int32: toward zero, saturating; INV on NaN or out of range. -/
def cvtfi (a : Nat) : Nat × Nat :=
  let (v, fl) := encInt 32 1 0 (fdec b32 a)
  (v, if fl = 0 then 0 else fINV)

/-! ### Formats by code (R251) -/

/-- Scalar floating formats by code. -/
def fmtOf : Nat → Option Fmt
  | 0x01 => some b32
  | 0x02 => some b16
  | 0x03 => some bf16
  | 0x04 => some e4m3
  | 0x05 => some e5m2
  | _ => none

/-- Bits of an element of a scalar or MX format. -/
def fmtBits : Nat → Nat
  | 0x01 => 32 | 0x02 => 16 | 0x03 => 16 | 0x04 => 8 | 0x05 => 8 | 0x06 => 8 | 0x07 => 4
  | 0x10 => 8 | 0x11 => 8 | 0x12 => 6 | 0x13 => 6 | 0x14 => 4 | 0x15 => 8 | 0x20 => 384 | 0x21 => 128
  | _ => 0

/-- The code is defined. -/
def fmtDefined (c : Nat) : Bool := fmtBits c ≠ 0

/-- The status of naming a code a command does not accept (R251). -/
def fmtStatus (c : Nat) : Nat :=
  if (0x08 ≤ c && c ≤ 0x0F) || (0x16 ≤ c && c ≤ 0x1F) || (0x22 ≤ c && c ≤ 0x3F) then 0x22 else 0x20

/-- The code names an MX format. -/
def isMx (c : Nat) : Bool := 0x10 ≤ c && c ≤ 0x15

/-- Read a scalar element as binary32 bits (floats) or int32 bits (integers), with its flags (R243, R258, R261). -/
def readElem (code b : Nat) : Nat × Nat :=
  match code with
  | 0x01 => (b, 0)
  | 0x06 => ((toInt 8 b % 2 ^ 32).toNat, 0)
  | 0x07 => ((toInt 4 b % 2 ^ 32).toNat, 0)
  | c => match fmtOf c with
    | some f => fenc b32 0 0 (fdec f b)
    | none => (0, 0)

/-- Write a binary32 value into a scalar format; NF when a NaN or infinity is stored (R248). -/
def writeElem (code mode r v : Nat) : Nat × Nat :=
  match code with
  | 0x06 => encInt 8 mode r (fdec b32 v)
  | 0x07 => encInt 4 mode r (fdec b32 v)
  | c => match fmtOf c with
    | some f =>
      let (b, fl) := fenc f mode r (fdec b32 v)
      let fl := fl ||| (match fdec b32 v with | .nan true => fINV | _ => 0)
      match fdec f b with
      | .nan _ | .inf _ => (b, fl ||| fNF)
      | .fin .. => (b, fl)
    | none => (0, 0)

/-! ### MX blocks (R255 to R257, R262) -/

/-- Element format of an MX code; none for MXINT8. -/
def mxFmt : Nat → Option Fmt
  | 0x10 => some e4m3
  | 0x11 => some e5m2
  | 0x12 => some e3m2
  | 0x13 => some e2m3
  | 0x14 => some e2m1
  | _ => none

/-- emax (R262). -/
def mxEmax : Nat → Int
  | 0x10 => 8
  | 0x11 => 15
  | 0x12 => 4
  | 0x13 => 2
  | 0x14 => 2
  | _ => 0

/-- Decode one MX element with its block's scale byte, as binary32 (R257). -/
def mxDecode (code scale b : Nat) : Nat × Nat :=
  if scale = 0xFF then (qnan, 0) else
  let sh : Int := (scale : Int) - 127
  let v := match mxFmt code with
    | some f => fdec f b
    | none => match fvInt (toInt 8 b) with
      | .fin n m e => .fin n m (e - 6)
      | x => x
  match v with
  | .fin n m e =>
    let (bits, fl) := roundMag b32 0 0 n m (e + sh) false
    (bits, fl)
  | .inf n => (b32.sign n 0x7F800000, 0)
  | .nan _ => (qnan, 0)

/-- floor(log2) of m·2^e, m > 0. -/
def flog2 (m : Nat) (e : Int) : Int := e + bitLen m - 1

/-- The larger of two magnitudes. -/
def maxMag (a b : Nat × Int) : Nat × Int := if dlt a.1 a.2 b.1 b.2 then b else a

/-- Write one block of exact values: scale byte, element bits, flags (R262). `rs` are the draws of the elements. -/
def mxEncode (code mode : Nat) (vs : List FV) (rs : List Nat) : Nat × List Nat × Nat :=
  let bad := vs.any (fun v => match v with | .fin .. => false | _ => true)
  if bad then (0xFF, vs.map (fun _ => 0), fNF ||| anySig vs) else
  let amax := vs.foldl (fun a v => match v with | .fin _ m e => maxMag a (m, e) | _ => a) (0, 0)
  let zero := amax.1 = 0
  let ex0 := flog2 amax.1 amax.2 - mxEmax code
  let ex : Int := if zero then 0 else if ex0 < -127 then -127 else if ex0 > 127 then 127 else ex0
  let one (v : FV) (r : Nat) : Nat × Nat :=
    match v with
    | .fin n m e =>
      match mxFmt code with
      | some f => roundMag f mode r n m (e - ex) false
      | none => encInt 8 mode r (.fin n m (e - ex + 6))
    | _ => (0, 0)
  let es := (vs.zip rs).map (fun x => one x.1 x.2)
  (if zero then 0x7F else (ex + 127).toNat, es.map (·.1), es.foldl (fun a x => a ||| x.2) 0)

/-! ### The counter generator (R264, R265) -/

/-- mix, modulo 2^64. -/
def mix64 (x : Nat) : Nat :=
  let m := 2 ^ 64
  let x := x ^^^ (x >>> 31)
  let x := x * 0xA3B195C24F6D8E07 % m
  let x := x ^^^ (x >>> 29)
  let x := x * 0xC8E51B7D3A92F44B % m
  x ^^^ (x >>> 32)

/-- draw(seed, step, index, d): 32 bits. -/
def draw (seed step index d : Nat) : Nat :=
  let x := mix64 (seed ^^^ 0x5A17E0C39B24D681)
  let x := mix64 (x ^^^ (step * 256 + d))
  let x := mix64 (x ^^^ index)
  let x := mix64 (x ^^^ 0x2F8D61A4C03EB759)
  x >>> 32

/-! ### The exact accumulator (R268 to R273) -/

/-- Its state. The sum is a · 2^-149. -/
structure Accum where
  a : Int := 0
  count : Nat := 0
  nan : Bool := false
  pinf : Bool := false
  ninf : Bool := false
  allneg0 : Bool := true
  ovf : Bool := false
  bittern : Bool := false
  deriving DecidableEq, Repr

/-- The most terms it takes (R269). -/
def maxTerms : Nat := 2 ^ 40 - 1

/-- Wrap to 320 bits two's complement. -/
def wrap320 (i : Int) : Int := toInt 320 (i % 2 ^ 320).toNat

/-- Add a binary32 term. -/
def accTerm (t : Nat) (bit : Bool) (x : Accum) : Accum :=
  let x := { x with bittern := x.bittern || bit }
  if x.count = maxTerms then { x with ovf := true } else
  let x := { x with count := x.count + 1 }
  match fdec b32 t with
  | .nan _ => { x with nan := true, allneg0 := false }
  | .inf n => if n then { x with ninf := true, allneg0 := false } else { x with pinf := true, allneg0 := false }
  | .fin n m e =>
    if m = 0 then { x with allneg0 := x.allneg0 && n }
    else
      let v : Int := m * 2 ^ (e + 149).toNat
      { x with a := wrap320 (if n then x.a - v else x.a + v), allneg0 := false }

/-- Merge two accumulators (R273). -/
def accMerge (x y : Accum) : Accum :=
  let c := x.count + y.count
  { a := wrap320 (x.a + y.a), count := min c maxTerms,
    nan := x.nan || y.nan, pinf := x.pinf || y.pinf, ninf := x.ninf || y.ninf,
    allneg0 := x.allneg0 && y.allneg0, ovf := x.ovf || y.ovf || c > maxTerms, bittern := x.bittern || y.bittern }

/-- The value an accumulator is rounded from, and INV when it is NaN (R270). -/
def accValue (x : Accum) : FV × Nat :=
  if x.nan || x.ovf || (x.pinf && x.ninf) then (.nan false, fINV)
  else if x.pinf then (.inf false, 0)
  else if x.ninf then (.inf true, 0)
  else if x.a = 0 then (.fin (x.allneg0 && x.count ≥ 1) 0 0, 0)
  else (.fin (x.a < 0) x.a.natAbs (-149), 0)

/-- Write an exact value into a scalar format with NF, one rounding (R258). -/
def writeExact (code mode r : Nat) (v : FV) : Nat × Nat :=
  match code with
  | 0x06 => encInt 8 mode r v
  | 0x07 => encInt 4 mode r v
  | c => match fmtOf c with
    | some f =>
      let (b, fl) := fenc f mode r v
      match fdec f b with
      | .nan _ | .inf _ => (b, fl ||| fNF)
      | .fin .. => (b, fl)
    | none => (0, 0)

/-- Deliver an accumulator in a scalar format (R270). -/
def accDeliver (code mode r : Nat) (x : Accum) : Nat × Nat :=
  let (v, i) := accValue x
  let (b, fl) := writeExact code mode r v
  (b, fl ||| i)

/-- Trailing zero bits, up to a limit. -/
def trailing : Nat → Nat → Nat
  | 0, _ => 0
  | n + 1, v => if v % 2 = 0 then 1 + trailing n (v / 2) else 0

/-- The flag bits of an exchange form: NAN, PINF, NINF, ALLNEG0, then the last two in the order given. -/
def accFlags (x : Accum) (p q : Bool) : Nat :=
  b2n x.nan + 2 * b2n x.pinf + 4 * b2n x.ninf + 8 * b2n x.allneg0 + 16 * b2n p + 32 * b2n q

/-- The windowed form, when the sum fits it canonically (R271, R273). -/
def accWin (x : Accum) : Option Nat :=
  let b := if x.a = 0 then 0 else trailing 248 (x.a % 2 ^ 320).toNat
  let w : Int := x.a / 2 ^ b
  if -(2 ^ 71 : Int) ≤ w && w < 2 ^ 71 then
    some ((w % 2 ^ 72).toNat + b * 2 ^ 72 + accFlags x x.bittern x.ovf * 2 ^ 82 + x.count * 2 ^ 88)
  else none

/-- The full form (R272). -/
def accFull (x : Accum) : Nat :=
  (x.a % 2 ^ 320).toNat + 2 ^ 320 + accFlags x x.bittern x.ovf * 2 ^ 321 + x.count * 2 ^ 327

/-- Read a windowed form; none when malformed (R273). -/
def readWin (n : Nat) : Option Accum :=
  let b := bitsOf n 72 9
  if b > 248 || bitAt n 81 then none
  else some { a := wrap320 (toInt 72 (bitsOf n 0 72) * 2 ^ b), count := bitsOf n 88 40, nan := bitAt n 82, pinf := bitAt n 83,
              ninf := bitAt n 84, allneg0 := bitAt n 85, bittern := bitAt n 86, ovf := bitAt n 87 }

/-- Read a full form; none when malformed (R273). -/
def readFull (n : Nat) : Option Accum :=
  if !bitAt n 320 || bitsOf n 367 17 ≠ 0 then none
  else some { a := toInt 320 (bitsOf n 0 320), count := bitsOf n 327 40, nan := bitAt n 321, pinf := bitAt n 322,
              ninf := bitAt n 323, allneg0 := bitAt n 324, bittern := bitAt n 325, ovf := bitAt n 326 }

end Sys2Proof.Machine
end

