-- ==== Sys2Proof/Config.lean ====
section
/-! DEFINITION. What an implementation or the outside fixes, and the values the spec leaves open: constants with no
body, so that no proof can see what they are. -/

namespace Sys2Proof.Config

/-- The die's unique ID, blown in fuses (GLB_UID, chapter 24; assumption 3). -/
opaque fuseUid : BitVec 64

/-- A value the spec does not fix: the n-th one taken in a run (assumption 1). -/
opaque freeValue (w : Nat) : Nat → BitVec w

/-- The set of the home directory that a line falls in (R120, R122): the spec does not give the index (assumption 14). -/
opaque homeSet : Nat → Nat → BitVec 19

/-- The 32 operation words of the built-in recipes whose operations the spec does not list: SGDM (1) and FACT_APPLY (5)
(R249, assumption 23). -/
opaque builtinOps : Nat → BitVec 2048

/-- Which of the sequences that compute a built-in's stated result its block holds: FACT_STATS (4) and AXPY (6), whose words
the spec does not list (R249, assumption 23). -/
opaque builtinOrder : Nat → Nat

/-- Whether stream `k` of SGDM (1), FACT_APPLY (5) and AXPY (6) has LAYOUT ALIGNED: R249 does not say (assumption 23). -/
opaque builtinAligned : Nat → Nat → Bool

/-- The 4 KiB header of the lifetime record, written at manufacture (R527): the spec gives its fields and no offsets
(assumption 30). -/
opaque recordHeader : BitVec 12 → BitVec 8

/-- AVS setpoints of the die in mV, VDD_CORE and VDD_STK (R444, R528; assumption 30). -/
opaque avsCore : BitVec 16
opaque avsStack : BitVec 16

/-- A signature verifies: algorithm, the public keys, the message and the signature (R35, R476; assumption 31). -/
opaque sigValid : Nat → List (BitVec 8) → List (BitVec 8) → List (BitVec 8) → Bool

/-- An ECDSA P-384 signature made on the die: of DEVID (0), ALIAS (1) or BRK (2) (R471, R508; assumption 31). -/
opaque signature : Nat → List (BitVec 8) → List (BitVec 8)

/-- Ciphertext of a line under the n-th key made, at a tweak, with its mark and check symbols' view: 64 bytes (R480, R481;
assumption 31). -/
opaque ciphertext : Nat → Nat → BitVec 512 → BitVec 512

/-- The mark symbol of a line beside its bittern mark and TRACKED bit: the reserved bits (R450; assumption 31). -/
opaque markReserved : BitVec 14

/-- Digests of the boot ROM, the Onyx and the Beryl firmware that the die was shipped with (R473; assumption 31). -/
opaque shippedDigest : Nat → List (BitVec 8)

end Sys2Proof.Config
end

