-- ==== Sys2Proof/Machine/Fields.lean ====
section
/-! DEFINITION. The fields of every register, one definition a field, written from the register tables of the spec:
where the field lies (8 × the management address of its register + its lowest bit), its width and its value after cold reset. -/

namespace Sys2Proof.Machine

/-- One field of one register. -/
structure Fld where
  /-- 8 × the register's management address + the field's lowest bit. -/
  key : Nat
  width : Nat
  /-- The value after cold reset. -/
  reset : Nat
  deriving DecidableEq, Repr

/-- GLB_FEAT_OFFER_k (chapter 24): the feature bits that the silicon offers. -/
def featOffer : Nat → Nat
  | 0 => 0x3F01FF
  | 1 => 0x007F003F00030007
  | 2 => 0x7001F
  | _ => 0

/-- A reserved field: reads zero (R7). -/
def RSVD (addr lo width : Nat) : Fld := ⟨8 * addr + lo, width, 0⟩

-- CMP_STATE (02_compositions.md, R57)
def CMP_STATE_CMP_ID (slot : Nat) : Fld := ⟨8 * (0x100000 + 4096 * slot) + 0, 16, 0x0⟩
def CMP_STATE_SLOT (slot : Nat) : Fld := ⟨8 * (0x100000 + 4096 * slot) + 16, 6, 0⟩
def CMP_STATE_STATE (slot : Nat) : Fld := ⟨8 * (0x100000 + 4096 * slot) + 24, 2, 0⟩
def CMP_STATE_COHERENCE (slot : Nat) : Fld := ⟨8 * (0x100000 + 4096 * slot) + 26, 1, 0⟩
def CMP_STATE_SERIAL_LO (slot : Nat) : Fld := ⟨8 * (0x100000 + 4096 * slot) + 32, 32, 0⟩
-- CMP_HEAT_CTL (03_pool_memory.md, R79)
def CMP_HEAT_CTL_EPOCH (slot : Nat) : Fld := ⟨8 * (0x100040 + 4096 * slot) + 0, 4, 0x6⟩
def CMP_HEAT_CTL_FREEZE (slot : Nat) : Fld := ⟨8 * (0x100040 + 4096 * slot) + 4, 1, 0⟩
def CMP_HEAT_CTL_CLEAR (slot : Nat) : Fld := ⟨8 * (0x100040 + 4096 * slot) + 5, 1, 0⟩
-- CMP_NW_READ_CNT (03_pool_memory.md, R85)
def CMP_NW_READ_CNT (slot : Nat) : Fld := ⟨8 * (0x100048 + 4096 * slot) + 0, 64, 0⟩
-- CMP_UNBACKED_CNT (03_pool_memory.md, R85)
def CMP_UNBACKED_CNT (slot : Nat) : Fld := ⟨8 * (0x100050 + 4096 * slot) + 0, 64, 0⟩
-- CMP_STALL_CNT (03_pool_memory.md, R90)
def CMP_STALL_CNT (slot : Nat) (n : Nat) : Fld := ⟨8 * (0x100100 + 4096 * slot + 8 * n) + 0, 64, 0⟩
-- CMP_HARVEST_USE (04_harvests_and_bittern.md, R107)
def CMP_HARVEST_USE_BLOCKS_USED (slot : Nat) : Fld := ⟨8 * (0x100060 + 4096 * slot) + 0, 32, 0⟩
def CMP_HARVEST_USE_LIVE_HARVESTS (slot : Nat) : Fld := ⟨8 * (0x100060 + 4096 * slot) + 32, 16, 0⟩
def CMP_HARVEST_USE_WARN_STK (slot : Nat) : Fld := ⟨8 * (0x100060 + 4096 * slot) + 48, 1, 0⟩
def CMP_HARVEST_USE_EXHAUST_STK (slot : Nat) : Fld := ⟨8 * (0x100060 + 4096 * slot) + 49, 1, 0⟩
-- CMP_HARVEST_CLOSED_CNT (04_harvests_and_bittern.md, R107)
def CMP_HARVEST_CLOSED_CNT (slot : Nat) : Fld := ⟨8 * (0x100068 + 4096 * slot) + 0, 64, 0⟩
-- CMP_HEARTBEAT (04_harvests_and_bittern.md, R110)
def CMP_HEARTBEAT_AGENT (slot : Nat) : Fld := ⟨8 * (0x100088 + 4096 * slot) + 0, 8, 0⟩
def CMP_HEARTBEAT_BEAT (slot : Nat) : Fld := ⟨8 * (0x100088 + 4096 * slot) + 8, 1, 0⟩
-- CMP_JOB_CTL (04_harvests_and_bittern.md, R114)
def CMP_JOB_CTL_JOB (slot : Nat) : Fld := ⟨8 * (0x100080 + 4096 * slot) + 0, 16, 0x0⟩
def CMP_JOB_CTL_RESUME (slot : Nat) : Fld := ⟨8 * (0x100080 + 4096 * slot) + 16, 1, 0⟩
def CMP_JOB_CTL_STOPPED (slot : Nat) : Fld := ⟨8 * (0x100080 + 4096 * slot) + 17, 1, 0⟩
-- CMP_BITTERN_NEW_CNT (04_harvests_and_bittern.md, R114)
def CMP_BITTERN_NEW_CNT (slot : Nat) : Fld := ⟨8 * (0x100070 + 4096 * slot) + 0, 64, 0⟩
-- CMP_BITTERN_USE_CNT (04_harvests_and_bittern.md, R114)
def CMP_BITTERN_USE_CNT (slot : Nat) : Fld := ⟨8 * (0x100078 + 4096 * slot) + 0, 64, 0⟩
-- DIR_STATUS (05_coherence.md, R146)
def DIR_STATUS_HOME_USED : Fld := ⟨8 * (0x300000) + 0, 23, 0⟩
def DIR_STATUS_FILTER_USED : Fld := ⟨8 * (0x300000) + 24, 22, 0⟩
def DIR_STATUS_UNEXPECTED_STK : Fld := ⟨8 * (0x300000) + 46, 1, 0⟩
def DIR_STATUS_SNOOP_FAIL_STK : Fld := ⟨8 * (0x300000) + 47, 1, 0⟩
-- DIR_EVENT_CNT (05_coherence.md, R147)
def DIR_EVENT_CNT (n : Nat) : Fld := ⟨8 * (0x300008 + 8 * n) + 0, 64, 0⟩
-- FAB_ROUTE (06_fabric.md, R163)
def FAB_ROUTE_PRIMARY (d : Nat) : Fld := ⟨8 * (0x408000 + 8 * d) + 0, 5, 0⟩
def FAB_ROUTE_PRIM_HOPS (d : Nat) : Fld := ⟨8 * (0x408000 + 8 * d) + 5, 3, 0⟩
def FAB_ROUTE_ALTERNATE (d : Nat) : Fld := ⟨8 * (0x408000 + 8 * d) + 8, 5, 0⟩
def FAB_ROUTE_ALT_HOPS (d : Nat) : Fld := ⟨8 * (0x408000 + 8 * d) + 13, 3, 0⟩
def FAB_ROUTE_PRIM_VALID (d : Nat) : Fld := ⟨8 * (0x408000 + 8 * d) + 16, 1, 0⟩
def FAB_ROUTE_ALT_VALID (d : Nat) : Fld := ⟨8 * (0x408000 + 8 * d) + 17, 1, 0⟩
def FAB_ROUTE_USE_ALT (d : Nat) : Fld := ⟨8 * (0x408000 + 8 * d) + 18, 1, 0⟩
def FAB_ROUTE_UNREACHABLE (d : Nat) : Fld := ⟨8 * (0x408000 + 8 * d) + 19, 1, 0⟩
def FAB_ROUTE_BULK_WAYS (d : Nat) : Fld := ⟨8 * (0x408000 + 8 * d) + 20, 2, 0⟩
def FAB_ROUTE_BULK_PORT1 (d : Nat) : Fld := ⟨8 * (0x408000 + 8 * d) + 24, 5, 0⟩
def FAB_ROUTE_BULK_PORT2 (d : Nat) : Fld := ⟨8 * (0x408000 + 8 * d) + 32, 5, 0⟩
def FAB_ROUTE_BULK_PORT3 (d : Nat) : Fld := ⟨8 * (0x408000 + 8 * d) + 40, 5, 0⟩
-- FAB_NODE (06_fabric.md, R174)
def FAB_NODE_NODE_ID : Fld := ⟨8 * (0x400000) + 0, 12, 0⟩
def FAB_NODE_INCARNATION : Fld := ⟨8 * (0x400000) + 16, 16, 0⟩
def FAB_NODE_MASTER : Fld := ⟨8 * (0x400000) + 32, 1, 0⟩
def FAB_NODE_STANDBY : Fld := ⟨8 * (0x400000) + 33, 1, 0⟩
def FAB_NODE_JOINED : Fld := ⟨8 * (0x400000) + 34, 1, 0⟩
-- FAB_STATUS (06_fabric.md, R174)
def FAB_STATUS_MALFORMED_STK : Fld := ⟨8 * (0x400008) + 0, 1, 0⟩
def FAB_STATUS_HOP_LIMIT_STK : Fld := ⟨8 * (0x400008) + 1, 1, 0⟩
def FAB_STATUS_AUDIT_STK : Fld := ⟨8 * (0x400008) + 2, 1, 0⟩
def FAB_STATUS_LINK_DOWN_STK : Fld := ⟨8 * (0x400008) + 3, 1, 0⟩
-- FAB_HOTLINE_CNT (06_fabric.md, R174)
def FAB_HOTLINE_CNT : Fld := ⟨8 * (0x400010) + 0, 64, 0⟩
-- FAB_HOTLINE_ADDR (06_fabric.md, R174)
def FAB_HOTLINE_ADDR_LINE : Fld := ⟨8 * (0x400018) + 6, 50, 0⟩
-- FAB_HOTLINE_INFO (06_fabric.md, R174)
def FAB_HOTLINE_INFO_CMP_ID : Fld := ⟨8 * (0x400020) + 0, 16, 0⟩
def FAB_HOTLINE_INFO_DEPTH : Fld := ⟨8 * (0x400020) + 16, 15, 0⟩
-- FAB_STALE_DROP_CNT (06_fabric.md, R174)
def FAB_STALE_DROP_CNT : Fld := ⟨8 * (0x400028) + 0, 64, 0⟩
-- FAB_EVENT_CNT (06_fabric.md, R174)
def FAB_EVENT_CNT (n : Nat) : Fld := ⟨8 * (0x400040 + 8 * n) + 0, 64, 0⟩
-- FAB_PEER_INC (06_fabric.md, R174)
def FAB_PEER_INC_INC0 (k : Nat) : Fld := ⟨8 * (0x410000 + 8 * k) + 0, 16, 0⟩
def FAB_PEER_INC_INC1 (k : Nat) : Fld := ⟨8 * (0x410000 + 8 * k) + 16, 16, 0⟩
def FAB_PEER_INC_INC2 (k : Nat) : Fld := ⟨8 * (0x410000 + 8 * k) + 32, 16, 0⟩
def FAB_PEER_INC_INC3 (k : Nat) : Fld := ⟨8 * (0x410000 + 8 * k) + 48, 16, 0⟩
-- SLC_CTL (07_sluices.md, R179)
def SLC_CTL_ENABLE (k : Nat) : Fld := ⟨8 * (0x1000000 + 256 * k) + 0, 1, 0⟩
def SLC_CTL_SQ_LOC (k : Nat) : Fld := ⟨8 * (0x1000000 + 256 * k) + 1, 1, 0⟩
def SLC_CTL_CQ_LOC (k : Nat) : Fld := ⟨8 * (0x1000000 + 256 * k) + 2, 1, 0⟩
def SLC_CTL_SQ_LOG2 (k : Nat) : Fld := ⟨8 * (0x1000000 + 256 * k) + 4, 5, 0x4⟩
def SLC_CTL_CQ_LOG2 (k : Nat) : Fld := ⟨8 * (0x1000000 + 256 * k) + 9, 5, 0x4⟩
def SLC_CTL_PRIO (k : Nat) : Fld := ⟨8 * (0x1000000 + 256 * k) + 14, 2, 0⟩
def SLC_CTL_WEIGHT (k : Nat) : Fld := ⟨8 * (0x1000000 + 256 * k) + 16, 4, 0x0⟩
def SLC_CTL_BW_CLASS (k : Nat) : Fld := ⟨8 * (0x1000000 + 256 * k) + 20, 3, 0⟩
def SLC_CTL_PORT (k : Nat) : Fld := ⟨8 * (0x1000000 + 256 * k) + 24, 5, 0⟩
def SLC_CTL_JOB (k : Nat) : Fld := ⟨8 * (0x1000000 + 256 * k) + 32, 16, 0x0⟩
def SLC_CTL_ASID (k : Nat) : Fld := ⟨8 * (0x1000000 + 256 * k) + 48, 16, 0x0⟩
-- SLC_SQ_BASE (07_sluices.md, R180)
def SLC_SQ_BASE_BASE (k : Nat) : Fld := ⟨8 * (0x1000008 + 256 * k) + 12, 52, 0⟩
-- SLC_CQ_BASE (07_sluices.md, R180)
def SLC_CQ_BASE_BASE (k : Nat) : Fld := ⟨8 * (0x1000010 + 256 * k) + 12, 52, 0⟩
-- SLC_SQ_TAIL (07_sluices.md, R180)
def SLC_SQ_TAIL_TAIL (k : Nat) : Fld := ⟨8 * (0x1000018 + 256 * k) + 0, 16, 0⟩
-- SLC_CQ_HEAD (07_sluices.md, R180)
def SLC_CQ_HEAD_HEAD (k : Nat) : Fld := ⟨8 * (0x1000020 + 256 * k) + 0, 16, 0⟩
-- SLC_STATUS (07_sluices.md, R181)
def SLC_STATUS_SQ_HEAD (k : Nat) : Fld := ⟨8 * (0x1000028 + 256 * k) + 0, 16, 0⟩
def SLC_STATUS_CQ_TAIL (k : Nat) : Fld := ⟨8 * (0x1000028 + 256 * k) + 16, 16, 0⟩
def SLC_STATUS_STATE (k : Nat) : Fld := ⟨8 * (0x1000028 + 256 * k) + 32, 3, 0⟩
def SLC_STATUS_DB_ERR_STK (k : Nat) : Fld := ⟨8 * (0x1000028 + 256 * k) + 35, 1, 0⟩
def SLC_STATUS_RING_ERR_STK (k : Nat) : Fld := ⟨8 * (0x1000028 + 256 * k) + 36, 1, 0⟩
def SLC_STATUS_FEAT_ERR_STK (k : Nat) : Fld := ⟨8 * (0x1000028 + 256 * k) + 37, 1, 0⟩
def SLC_STATUS_IRQ_DROP_STK (k : Nat) : Fld := ⟨8 * (0x1000028 + 256 * k) + 38, 1, 0⟩
def SLC_STATUS_ENABLE_ERR (k : Nat) : Fld := ⟨8 * (0x1000028 + 256 * k) + 40, 4, 0⟩
def SLC_STATUS_IN_FLIGHT (k : Nat) : Fld := ⟨8 * (0x1000028 + 256 * k) + 48, 9, 0⟩
def SLC_STATUS_PHASE (k : Nat) : Fld := ⟨8 * (0x1000028 + 256 * k) + 57, 1, 1⟩
-- SLC_IRQ (07_sluices.md, R196)
def SLC_IRQ_MODE (k : Nat) : Fld := ⟨8 * (0x1000030 + 256 * k) + 0, 2, 0⟩
def SLC_IRQ_ERR_NOW (k : Nat) : Fld := ⟨8 * (0x1000030 + 256 * k) + 2, 1, 0⟩
def SLC_IRQ_ARMED (k : Nat) : Fld := ⟨8 * (0x1000030 + 256 * k) + 3, 1, 0⟩
def SLC_IRQ_VECTOR (k : Nat) : Fld := ⟨8 * (0x1000030 + 256 * k) + 16, 11, 0⟩
def SLC_IRQ_COUNT_THRESH (k : Nat) : Fld := ⟨8 * (0x1000030 + 256 * k) + 32, 8, 0x0⟩
def SLC_IRQ_TIMER_US (k : Nat) : Fld := ⟨8 * (0x1000030 + 256 * k) + 40, 10, 0⟩
-- CMP_FEAT_OFFER (07_sluices.md, R198)
def CMP_FEAT_OFFER (slot : Nat) (k : Nat) : Fld := ⟨8 * (0x100200 + 4096 * slot + 8 * k) + 0, 64, 0⟩
-- SLC_FEAT_ACCEPT (07_sluices.md, R199)
def SLC_FEAT_ACCEPT (k : Nat) (j : Nat) : Fld := ⟨8 * (0x10000a0 + 256 * k + 8 * j) + 0, 64, 0⟩
-- SLC_STALL_CNT (07_sluices.md, R200)
def SLC_STALL_CNT (k : Nat) (n : Nat) : Fld := ⟨8 * (0x1000040 + 256 * k + 8 * n) + 0, 64, 0⟩
-- SLC_DONE_CNT (07_sluices.md, R200)
def SLC_DONE_CNT (k : Nat) : Fld := ⟨8 * (0x1000088 + 256 * k) + 0, 64, 0⟩
-- SLC_FAIL_CNT (07_sluices.md, R200)
def SLC_FAIL_CNT (k : Nat) : Fld := ⟨8 * (0x1000090 + 256 * k) + 0, 64, 0⟩
-- SLC_BYTES_CNT (07_sluices.md, R200)
def SLC_BYTES_CNT (k : Nat) : Fld := ⟨8 * (0x1000098 + 256 * k) + 0, 64, 0⟩
-- SLC_CLASS_CLAMP_CNT (07_sluices.md, R200)
def SLC_CLASS_CLAMP_CNT (k : Nat) : Fld := ⟨8 * (0x10000c0 + 256 * k) + 0, 64, 0⟩
-- ENG_STALL_CNT (07_sluices.md, R200)
def ENG_STALL_CNT (e : Nat) (n : Nat) : Fld := ⟨8 * (0x600100 + 65536 * e + 8 * n) + 0, 64, 0⟩
-- CMP_ASID_CMD (08_translation.md, R224)
def CMP_ASID_CMD_ASID (slot : Nat) : Fld := ⟨8 * (0x100300 + 4096 * slot) + 0, 16, 0x0⟩
def CMP_ASID_CMD_OP (slot : Nat) : Fld := ⟨8 * (0x100300 + 4096 * slot) + 16, 3, 0⟩
def CMP_ASID_CMD_GO (slot : Nat) : Fld := ⟨8 * (0x100300 + 4096 * slot) + 20, 1, 0⟩
def CMP_ASID_CMD_RESULT (slot : Nat) : Fld := ⟨8 * (0x100300 + 4096 * slot) + 24, 4, 0x0⟩
-- CMP_ASID_ROOT (08_translation.md, R224)
def CMP_ASID_ROOT_ROOT (slot : Nat) : Fld := ⟨8 * (0x100308 + 4096 * slot) + 12, 44, 0⟩
-- CMP_XLAT_FAULT_VA (08_translation.md, R224)
def CMP_XLAT_FAULT_VA (slot : Nat) : Fld := ⟨8 * (0x100310 + 4096 * slot) + 0, 64, 0⟩
-- CMP_XLAT_FAULT_INFO (08_translation.md, R224)
def CMP_XLAT_FAULT_INFO_ASID (slot : Nat) : Fld := ⟨8 * (0x100318 + 4096 * slot) + 0, 16, 0x0⟩
def CMP_XLAT_FAULT_INFO_LEVEL (slot : Nat) : Fld := ⟨8 * (0x100318 + 4096 * slot) + 16, 3, 0⟩
def CMP_XLAT_FAULT_INFO_WRITE (slot : Nat) : Fld := ⟨8 * (0x100318 + 4096 * slot) + 19, 1, 0⟩
def CMP_XLAT_FAULT_INFO_REASON (slot : Nat) : Fld := ⟨8 * (0x100318 + 4096 * slot) + 20, 4, 0x0⟩
def CMP_XLAT_FAULT_INFO_FAULT_STK (slot : Nat) : Fld := ⟨8 * (0x100318 + 4096 * slot) + 24, 1, 0⟩
def CMP_XLAT_FAULT_INFO_OVERRUN_STK (slot : Nat) : Fld := ⟨8 * (0x100318 + 4096 * slot) + 25, 1, 0⟩
-- CMP_XLAT_EVENT_CNT (08_translation.md, R224)
def CMP_XLAT_EVENT_CNT (slot : Nat) (n : Nat) : Fld := ⟨8 * (0x100320 + 4096 * slot + 8 * n) + 0, 64, 0⟩
-- TIL_PAN_SPARE (09_pans_and_recipes.md, R234)
def TIL_PAN_SPARE_SP0_VAULT (t : Nat) : Fld := ⟨8 * (0x700100 + 16384 * t) + 0, 8, 0xff⟩
def TIL_PAN_SPARE_SP1_VAULT (t : Nat) : Fld := ⟨8 * (0x700100 + 16384 * t) + 8, 8, 0xff⟩
def TIL_PAN_SPARE_SP0_BAD (t : Nat) : Fld := ⟨8 * (0x700100 + 16384 * t) + 16, 1, 0⟩
def TIL_PAN_SPARE_SP1_BAD (t : Nat) : Fld := ⟨8 * (0x700100 + 16384 * t) + 17, 1, 0⟩
def TIL_PAN_SPARE_PERM (t : Nat) : Fld := ⟨8 * (0x700100 + 16384 * t) + 18, 1, 0⟩
def TIL_PAN_SPARE_PERM_VAULT (t : Nat) : Fld := ⟨8 * (0x700100 + 16384 * t) + 19, 7, 0⟩
def TIL_PAN_SPARE_SUBST_STK (t : Nat) : Fld := ⟨8 * (0x700100 + 16384 * t) + 26, 1, 0⟩
def TIL_PAN_SPARE_RETIRED (t : Nat) : Fld := ⟨8 * (0x700100 + 16384 * t) + 27, 1, 0⟩
-- TIL_ADOPT (09_pans_and_recipes.md, R234)
def TIL_ADOPT_SELFTEST (t : Nat) : Fld := ⟨8 * (0x700108 + 16384 * t) + 0, 1, 0⟩
def TIL_ADOPT_ADOPTING (t : Nat) : Fld := ⟨8 * (0x700108 + 16384 * t) + 1, 1, 0⟩
def TIL_ADOPT_PARTNER (t : Nat) : Fld := ⟨8 * (0x700108 + 16384 * t) + 2, 5, t ^^^ 1⟩
-- TIL_PERM (09_pans_and_recipes.md, R234)
def TIL_PERM_VAULT0 (t : Nat) (j : Nat) : Fld := ⟨8 * (0x700128 + 16384 * t + 8 * j) + 0, 7, 0⟩
def TIL_PERM_VALID0 (t : Nat) (j : Nat) : Fld := ⟨8 * (0x700128 + 16384 * t + 8 * j) + 7, 1, 0⟩
def TIL_PERM_VAULT1 (t : Nat) (j : Nat) : Fld := ⟨8 * (0x700128 + 16384 * t + 8 * j) + 8, 7, 0⟩
def TIL_PERM_VALID1 (t : Nat) (j : Nat) : Fld := ⟨8 * (0x700128 + 16384 * t + 8 * j) + 15, 1, 0⟩
def TIL_PERM_VAULT2 (t : Nat) (j : Nat) : Fld := ⟨8 * (0x700128 + 16384 * t + 8 * j) + 16, 7, 0⟩
def TIL_PERM_VALID2 (t : Nat) (j : Nat) : Fld := ⟨8 * (0x700128 + 16384 * t + 8 * j) + 23, 1, 0⟩
def TIL_PERM_VAULT3 (t : Nat) (j : Nat) : Fld := ⟨8 * (0x700128 + 16384 * t + 8 * j) + 24, 7, 0⟩
def TIL_PERM_VALID3 (t : Nat) (j : Nat) : Fld := ⟨8 * (0x700128 + 16384 * t + 8 * j) + 31, 1, 0⟩
def TIL_PERM_VAULT4 (t : Nat) (j : Nat) : Fld := ⟨8 * (0x700128 + 16384 * t + 8 * j) + 32, 7, 0⟩
def TIL_PERM_VALID4 (t : Nat) (j : Nat) : Fld := ⟨8 * (0x700128 + 16384 * t + 8 * j) + 39, 1, 0⟩
def TIL_PERM_VAULT5 (t : Nat) (j : Nat) : Fld := ⟨8 * (0x700128 + 16384 * t + 8 * j) + 40, 7, 0⟩
def TIL_PERM_VALID5 (t : Nat) (j : Nat) : Fld := ⟨8 * (0x700128 + 16384 * t + 8 * j) + 47, 1, 0⟩
def TIL_PERM_VAULT6 (t : Nat) (j : Nat) : Fld := ⟨8 * (0x700128 + 16384 * t + 8 * j) + 48, 7, 0⟩
def TIL_PERM_VALID6 (t : Nat) (j : Nat) : Fld := ⟨8 * (0x700128 + 16384 * t + 8 * j) + 55, 1, 0⟩
def TIL_PERM_VAULT7 (t : Nat) (j : Nat) : Fld := ⟨8 * (0x700128 + 16384 * t + 8 * j) + 56, 7, 0⟩
def TIL_PERM_VALID7 (t : Nat) (j : Nat) : Fld := ⟨8 * (0x700128 + 16384 * t + 8 * j) + 63, 1, 0⟩
-- TIL_SUBST_CNT (09_pans_and_recipes.md, R235)
def TIL_SUBST_CNT (t : Nat) : Fld := ⟨8 * (0x700110 + 16384 * t) + 0, 64, 0⟩
-- TIL_ADOPT_CNT (09_pans_and_recipes.md, R235)
def TIL_ADOPT_CNT (t : Nat) : Fld := ⟨8 * (0x700118 + 16384 * t) + 0, 64, 0⟩
-- TIL_STALE_DROP_CNT (09_pans_and_recipes.md, R235)
def TIL_STALE_DROP_CNT (t : Nat) : Fld := ⟨8 * (0x700120 + 16384 * t) + 0, 64, 0⟩
-- ENG_RED_STATUS (11_reduce_engine.md, R302)
def ENG_RED_STATUS_COLL_USED : Fld := ⟨8 * (0x620000) + 0, 13, 0⟩
def ENG_RED_STATUS_TIMEOUT_STK : Fld := ⟨8 * (0x620000) + 13, 1, 0⟩
def ENG_RED_STATUS_MISMATCH_STK : Fld := ⟨8 * (0x620000) + 14, 1, 0⟩
def ENG_RED_STATUS_TABLE_FULL_STK : Fld := ⟨8 * (0x620000) + 15, 1, 0⟩
-- ENG_RED_EVENT_CNT (11_reduce_engine.md, R302)
def ENG_RED_EVENT_CNT (n : Nat) : Fld := ⟨8 * (0x620010 + 8 * n) + 0, 64, 0⟩
-- ENG_GTH_STATUS (12_gather_engine.md, R327)
def ENG_GTH_STATUS_MERGE_USED : Fld := ⟨8 * (0x630000) + 0, 26, 0⟩
def ENG_GTH_STATUS_PASS_STK : Fld := ⟨8 * (0x630000) + 26, 1, 0⟩
-- ENG_GTH_HOTROW (12_gather_engine.md, R327)
def ENG_GTH_HOTROW_CMP_ID : Fld := ⟨8 * (0x630008) + 0, 16, 0x0⟩
def ENG_GTH_HOTROW_CONTRIB : Fld := ⟨8 * (0x630008) + 16, 32, 0⟩
-- ENG_GTH_DROP_CNT (12_gather_engine.md, R327)
def ENG_GTH_DROP_CNT (n : Nat) : Fld := ⟨8 * (0x630010 + 8 * n) + 0, 64, 0⟩
-- ENG_GTH_EVENT_CNT (12_gather_engine.md, R327)
def ENG_GTH_EVENT_CNT (n : Nat) : Fld := ⟨8 * (0x630040 + 8 * n) + 0, 64, 0⟩
-- ENG_RAK_STATUS (13_rake_engine.md, R352)
def ENG_RAK_STATUS_CAND_USED : Fld := ⟨8 * (0x640000) + 0, 25, 0⟩
def ENG_RAK_STATUS_FORCING : Fld := ⟨8 * (0x640000) + 25, 1, 0⟩
def ENG_RAK_STATUS_FORCED_STK : Fld := ⟨8 * (0x640000) + 26, 1, 0⟩
def ENG_RAK_STATUS_BUDGET_CUT_STK : Fld := ⟨8 * (0x640000) + 27, 1, 0⟩
-- ENG_RAK_DROP_CNT (13_rake_engine.md, R352)
def ENG_RAK_DROP_CNT (n : Nat) : Fld := ⟨8 * (0x640010 + 8 * n) + 0, 64, 0⟩
-- ENG_RAK_EVENT_CNT (13_rake_engine.md, R352)
def ENG_RAK_EVENT_CNT (n : Nat) : Fld := ⟨8 * (0x640040 + 8 * n) + 0, 64, 0⟩
-- ENG_ATT_STATUS (14_attend_engine.md, R370)
def ENG_ATT_STATUS_RECOMPUTE_STK : Fld := ⟨8 * (0x650000) + 0, 1, 0⟩
def ENG_ATT_STATUS_NONFINITE_STK : Fld := ⟨8 * (0x650000) + 1, 1, 0⟩
-- ENG_ATT_DROP_CNT (14_attend_engine.md, R370)
def ENG_ATT_DROP_CNT (n : Nat) : Fld := ⟨8 * (0x650010 + 8 * n) + 0, 64, 0⟩
-- ENG_ATT_EVENT_CNT (14_attend_engine.md, R370)
def ENG_ATT_EVENT_CNT (n : Nat) : Fld := ⟨8 * (0x650040 + 8 * n) + 0, 64, 0⟩
-- ENG_MOV_EVENT_CNT (15_move_and_check.md, R385)
def ENG_MOV_EVENT_CNT (n : Nat) : Fld := ⟨8 * (0x600040 + 8 * n) + 0, 64, 0⟩
-- ENG_CHK_EVENT_CNT (15_move_and_check.md, R385)
def ENG_CHK_EVENT_CNT (n : Nat) : Fld := ⟨8 * (0x610040 + 8 * n) + 0, 64, 0⟩
-- PRT_STATUS (16_ports_and_links.md, R406)
def PRT_STATUS_ROLE (p : Nat) : Fld := ⟨8 * (0x500000 + 16384 * p) + 0, 2, 0⟩
def PRT_STATUS_LINK_UP (p : Nat) : Fld := ⟨8 * (0x500000 + 16384 * p) + 2, 1, 0⟩
def PRT_STATUS_WIDTH (p : Nat) : Fld := ⟨8 * (0x500000 + 16384 * p) + 3, 3, 0⟩
def PRT_STATUS_RATE (p : Nat) : Fld := ⟨8 * (0x500000 + 16384 * p) + 6, 3, 0⟩
def PRT_STATUS_FLIT256 (p : Nat) : Fld := ⟨8 * (0x500000 + 16384 * p) + 9, 1, 0⟩
def PRT_STATUS_MEM_OFF (p : Nat) : Fld := ⟨8 * (0x500000 + 16384 * p) + 10, 1, 0⟩
def PRT_STATUS_PARITY_ON (p : Nat) : Fld := ⟨8 * (0x500000 + 16384 * p) + 11, 1, 0⟩
def PRT_STATUS_REBUILT_LANE (p : Nat) : Fld := ⟨8 * (0x500000 + 16384 * p) + 12, 4, 0xf⟩
def PRT_STATUS_MISWIRED_STK (p : Nat) : Fld := ⟨8 * (0x500000 + 16384 * p) + 16, 1, 0⟩
def PRT_STATUS_LANE_LOSS_STK (p : Nat) : Fld := ⟨8 * (0x500000 + 16384 * p) + 17, 1, 0⟩
def PRT_STATUS_DOWNGRADE_STK (p : Nat) : Fld := ⟨8 * (0x500000 + 16384 * p) + 18, 1, 0⟩
def PRT_STATUS_DOWN_STK (p : Nat) : Fld := ⟨8 * (0x500000 + 16384 * p) + 19, 1, 0⟩
def PRT_STATUS_UNSUPPORTED_STK (p : Nat) : Fld := ⟨8 * (0x500000 + 16384 * p) + 20, 1, 0⟩
-- PRT_CTL (16_ports_and_links.md, R406)
def PRT_CTL_RETRAIN (p : Nat) : Fld := ⟨8 * (0x500008 + 16384 * p) + 0, 1, 0⟩
def PRT_CTL_MARGIN_NOW (p : Nat) : Fld := ⟨8 * (0x500008 + 16384 * p) + 1, 1, 0⟩
-- PRT_LANE_MARGIN (16_ports_and_links.md, R406)
def PRT_LANE_MARGIN_EYE_W (p : Nat) (l : Nat) : Fld := ⟨8 * (0x500040 + 16384 * p + 8 * l) + 0, 8, 0⟩
def PRT_LANE_MARGIN_EYE_H (p : Nat) (l : Nat) : Fld := ⟨8 * (0x500040 + 16384 * p + 8 * l) + 8, 8, 0⟩
def PRT_LANE_MARGIN_LOCK (p : Nat) (l : Nat) : Fld := ⟨8 * (0x500040 + 16384 * p + 8 * l) + 16, 1, 0⟩
def PRT_LANE_MARGIN_USE (p : Nat) (l : Nat) : Fld := ⟨8 * (0x500040 + 16384 * p + 8 * l) + 17, 2, 3⟩
-- PRT_LANE_EVENT (16_ports_and_links.md, R406)
def PRT_LANE_EVENT_LANE (p : Nat) : Fld := ⟨8 * (0x500090 + 16384 * p) + 0, 4, 0⟩
def PRT_LANE_EVENT_CAUSE (p : Nat) : Fld := ⟨8 * (0x500090 + 16384 * p) + 4, 2, 0⟩
def PRT_LANE_EVENT_ACTION (p : Nat) : Fld := ⟨8 * (0x500090 + 16384 * p) + 6, 2, 0⟩
def PRT_LANE_EVENT_EYE_W (p : Nat) : Fld := ⟨8 * (0x500090 + 16384 * p) + 8, 8, 0⟩
def PRT_LANE_EVENT_EYE_H (p : Nat) : Fld := ⟨8 * (0x500090 + 16384 * p) + 16, 8, 0⟩
-- PRT_EVENT_CNT (16_ports_and_links.md, R406)
def PRT_EVENT_CNT (p : Nat) (n : Nat) : Fld := ⟨8 * (0x500100 + 16384 * p + 8 * n) + 0, 64, 0⟩
-- PRT_AGENT (16_ports_and_links.md, R406)
def PRT_AGENT_VALID (p : Nat) (k : Nat) : Fld := ⟨8 * (0x500200 + 16384 * p + 8 * k) + 0, 1, 0⟩
def PRT_AGENT_MATCH_ANY (p : Nat) (k : Nat) : Fld := ⟨8 * (0x500200 + 16384 * p + 8 * k) + 1, 1, 0⟩
def PRT_AGENT_SLOT (p : Nat) (k : Nat) : Fld := ⟨8 * (0x500200 + 16384 * p + 8 * k) + 2, 6, 0⟩
def PRT_AGENT_AGENT (p : Nat) (k : Nat) : Fld := ⟨8 * (0x500200 + 16384 * p + 8 * k) + 8, 8, 0⟩
def PRT_AGENT_BI_ID (p : Nat) (k : Nat) : Fld := ⟨8 * (0x500200 + 16384 * p + 8 * k) + 16, 12, 0⟩
def PRT_AGENT_REQ_ID (p : Nat) (k : Nat) : Fld := ⟨8 * (0x500200 + 16384 * p + 8 * k) + 28, 16, 0⟩
-- CLK_STATUS (17_clocks_and_power.md, R434)
def CLK_STATUS_PLAN : Fld := ⟨8 * (0x800000) + 0, 2, 0⟩
def CLK_STATUS_XREF_A_OK : Fld := ⟨8 * (0x800000) + 2, 1, 0⟩
def CLK_STATUS_XREF_B_OK : Fld := ⟨8 * (0x800000) + 3, 1, 0⟩
def CLK_STATUS_LFREF_OK : Fld := ⟨8 * (0x800000) + 4, 1, 0⟩
def CLK_STATUS_IRO_QUAL : Fld := ⟨8 * (0x800000) + 5, 1, 0⟩
def CLK_STATUS_CORE_XREF : Fld := ⟨8 * (0x800000) + 6, 1, 0⟩
def CLK_STATUS_SERDES_XREF : Fld := ⟨8 * (0x800000) + 7, 1, 0⟩
def CLK_STATUS_XREF_A_FAIL_STK : Fld := ⟨8 * (0x800000) + 8, 1, 0⟩
def CLK_STATUS_XREF_B_FAIL_STK : Fld := ⟨8 * (0x800000) + 9, 1, 0⟩
def CLK_STATUS_LFREF_FAIL_STK : Fld := ⟨8 * (0x800000) + 10, 1, 0⟩
def CLK_STATUS_IRO_FAIL_STK : Fld := ⟨8 * (0x800000) + 11, 1, 0⟩
def CLK_STATUS_FALLBACK_STK : Fld := ⟨8 * (0x800000) + 12, 1, 0⟩
def CLK_STATUS_HOLD_STK : Fld := ⟨8 * (0x800000) + 13, 1, 0⟩
def CLK_STATUS_NMI_PENDING : Fld := ⟨8 * (0x800000) + 14, 1, 0⟩
-- CLK_CTL (17_clocks_and_power.md, R434)
def CLK_CTL_RETURN : Fld := ⟨8 * (0x800008) + 0, 1, 0⟩
def CLK_CTL_RETURN_REF : Fld := ⟨8 * (0x800008) + 1, 1, 0⟩
-- CLK_EVENT_CNT (17_clocks_and_power.md, R434)
def CLK_EVENT_CNT (n : Nat) : Fld := ⟨8 * (0x800010 + 8 * n) + 0, 64, 0⟩
-- PWR_STATUS (17_clocks_and_power.md, R434)
def PWR_STATUS_POWER_W : Fld := ⟨8 * (0x900000) + 0, 11, 0⟩
def PWR_STATUS_GOV_CODE : Fld := ⟨8 * (0x900000) + 11, 8, 0xa0⟩
def PWR_STATUS_LIMIT : Fld := ⟨8 * (0x900000) + 19, 2, 0⟩
def PWR_STATUS_REFUSING : Fld := ⟨8 * (0x900000) + 21, 1, 0⟩
def PWR_STATUS_THERMAL : Fld := ⟨8 * (0x900000) + 22, 1, 0⟩
def PWR_STATUS_GOV_STK : Fld := ⟨8 * (0x900000) + 23, 1, 0⟩
def PWR_STATUS_REFUSED_STK : Fld := ⟨8 * (0x900000) + 24, 1, 0⟩
def PWR_STATUS_THERMAL_STK : Fld := ⟨8 * (0x900000) + 25, 1, 0⟩
def PWR_STATUS_BUDGET_WARN_STK : Fld := ⟨8 * (0x900000) + 26, 1, 0⟩
-- PWR_DOMAIN (17_clocks_and_power.md, R434)
def PWR_DOMAIN_ON : Fld := ⟨8 * (0x900008) + 0, 40, 0xe000000000⟩
-- PWR_RETAIN (17_clocks_and_power.md, R434)
def PWR_RETAIN_SELF_REFRESH : Fld := ⟨8 * (0x900010) + 0, 32, 0xffffffff⟩
-- PWR_WAKE (17_clocks_and_power.md, R434)
def PWR_WAKE_HOLD_ON : Fld := ⟨8 * (0x900018) + 0, 32, 0⟩
-- PWR_BURST (17_clocks_and_power.md, R434)
def PWR_BURST_USED_S : Fld := ⟨8 * (0x900020) + 0, 32, 0⟩
def PWR_BURST_GRANTED_S : Fld := ⟨8 * (0x900020) + 32, 32, 0⟩
-- PWR_RENEW (17_clocks_and_power.md, R434)
def PWR_RENEW_RENEW : Fld := ⟨8 * (0x900028) + 0, 1, 0⟩
def PWR_RENEW_RESULT : Fld := ⟨8 * (0x900028) + 1, 2, 0⟩
-- PWR_EVENT_CNT (17_clocks_and_power.md, R434)
def PWR_EVENT_CNT (n : Nat) : Fld := ⟨8 * (0x900040 + 8 * n) + 0, 64, 0⟩
-- PWR_TILE_CODE (17_clocks_and_power.md, R434)
def PWR_TILE_CODE (k : Nat) : Fld := ⟨8 * (0x900100 + 8 * k) + 0, 64, 0⟩
-- GLB_PKG_STATUS (18_package_and_signals.md, R448)
def GLB_PKG_STATUS_STRAP_ID : Fld := ⟨8 * (0x100) + 0, 10, 0⟩
def GLB_PKG_STATUS_STRAP_MCAP : Fld := ⟨8 * (0x100) + 10, 1, 0⟩
def GLB_PKG_STATUS_STRAP_BOOT : Fld := ⟨8 * (0x100) + 11, 2, 0⟩
def GLB_PKG_STATUS_STRAP_I3C : Fld := ⟨8 * (0x100) + 13, 2, 0⟩
def GLB_PKG_STATUS_PWRGD_MAIN : Fld := ⟨8 * (0x100) + 16, 1, 0⟩
def GLB_PKG_STATUS_ALERT : Fld := ⟨8 * (0x100) + 17, 1, 0⟩
def GLB_PKG_STATUS_FAULT : Fld := ⟨8 * (0x100) + 18, 1, 0⟩
def GLB_PKG_STATUS_THERMTRIP : Fld := ⟨8 * (0x100) + 19, 1, 0⟩
def GLB_PKG_STATUS_MAIN_LOSS_STK : Fld := ⟨8 * (0x100) + 20, 1, 0⟩
def GLB_PKG_STATUS_PMBUS_ERR_STK : Fld := ⟨8 * (0x100) + 21, 1, 0⟩
def GLB_PKG_STATUS_SEQ_FAIL_STK : Fld := ⟨8 * (0x100) + 22, 1, 0⟩
-- RAS_STATUS (19_reliability.md, R470)
def RAS_STATUS_AUDIT_CODE : Fld := ⟨8 * (0xa00000) + 0, 8, 0x0⟩
def RAS_STATUS_AUDIT_STK : Fld := ⟨8 * (0xa00000) + 8, 1, 0⟩
def RAS_STATUS_FATAL_INT_STK : Fld := ⟨8 * (0xa00000) + 9, 1, 0⟩
def RAS_STATUS_LAYER_SPARE_STK : Fld := ⟨8 * (0xa00000) + 10, 1, 0⟩
def RAS_STATUS_SPARE_EXHAUST_STK : Fld := ⟨8 * (0xa00000) + 11, 1, 0⟩
def RAS_STATUS_AORC_FAIL_STK : Fld := ⟨8 * (0xa00000) + 12, 1, 0⟩
def RAS_STATUS_CFG_FIX_STK : Fld := ⟨8 * (0xa00000) + 13, 1, 0⟩
def RAS_STATUS_SPARING : Fld := ⟨8 * (0xa00000) + 14, 1, 0⟩
def RAS_STATUS_SPARE_LAYER : Fld := ⟨8 * (0xa00000) + 15, 4, 0xc⟩
-- RAS_CTL (19_reliability.md, R470)
def RAS_CTL_SUSPECT_POLICY : Fld := ⟨8 * (0xa00008) + 0, 1, 0⟩
def RAS_CTL_SCRUB_PERIOD_H : Fld := ⟨8 * (0xa00008) + 1, 8, 0x8⟩
def RAS_CTL_SELFTEST_PERIOD_MIN : Fld := ⟨8 * (0xa00008) + 9, 8, 0x3c⟩
def RAS_CTL_LAYER : Fld := ⟨8 * (0xa00008) + 17, 4, 0x0⟩
def RAS_CTL_LAYER_SPARE_NOW : Fld := ⟨8 * (0xa00008) + 21, 1, 0⟩
def RAS_CTL_LAYER_CE_LIMIT : Fld := ⟨8 * (0xa00008) + 22, 16, 0xffff⟩
-- RAS_FAIL_CMD (19_reliability.md, R470)
def RAS_FAIL_CMD_SLOT : Fld := ⟨8 * (0xa00010) + 0, 6, 0⟩
def RAS_FAIL_CMD_FAIL : Fld := ⟨8 * (0xa00010) + 6, 1, 0⟩
-- RAS_PAN_SEL (19_reliability.md, R470)
def RAS_PAN_SEL_PAN : Fld := ⟨8 * (0xa00018) + 0, 12, 0x0⟩
def RAS_PAN_SEL_PAN_CLEAR : Fld := ⟨8 * (0xa00018) + 12, 1, 0⟩
-- RAS_PAN_INFO (19_reliability.md, R470)
def RAS_PAN_INFO_VSTEP : Fld := ⟨8 * (0xa00020) + 0, 2, 0⟩
def RAS_PAN_INFO_STRIKES : Fld := ⟨8 * (0xa00020) + 2, 2, 0⟩
def RAS_PAN_INFO_TILE_DROP : Fld := ⟨8 * (0xa00020) + 4, 4, 0x0⟩
def RAS_PAN_INFO_PHYS : Fld := ⟨8 * (0xa00020) + 8, 8, 0x0⟩
def RAS_PAN_INFO_SUSPECT : Fld := ⟨8 * (0xa00020) + 16, 1, 0⟩
-- RAS_ERR_CNT (19_reliability.md, R470)
def RAS_ERR_CNT (n : Nat) : Fld := ⟨8 * (0xa00040 + 8 * n) + 0, 64, 0⟩
-- SEC_STATUS (20_security.md, R491)
def SEC_STATUS_DEBUG_UNLOCKED : Fld := ⟨8 * (0xb00000) + 0, 1, 0⟩
def SEC_STATUS_REQUIRE_PQ : Fld := ⟨8 * (0xb00000) + 1, 1, 0⟩
def SEC_STATUS_ENTROPY_STK : Fld := ⟨8 * (0xb00000) + 2, 1, 0⟩
def SEC_STATUS_UNLOCK_STK : Fld := ⟨8 * (0xb00000) + 3, 1, 0⟩
def SEC_STATUS_UNLOCK_CNT : Fld := ⟨8 * (0xb00000) + 4, 8, 0x0⟩
def SEC_STATUS_IMGKEY : Fld := ⟨8 * (0xb00000) + 12, 8, 0x0⟩
def SEC_STATUS_PEER_AUTH_STK : Fld := ⟨8 * (0xb00000) + 20, 1, 0⟩
-- SEC_KEY_LIVE (20_security.md, R491)
def SEC_KEY_LIVE : Fld := ⟨8 * (0xb00008) + 0, 64, 0⟩
-- SEC_EVENT_CNT (20_security.md, R491)
def SEC_EVENT_CNT (n : Nat) : Fld := ⟨8 * (0xb00040 + 8 * n) + 0, 64, 0⟩
-- CMP_SEC_BIND (20_security.md, R491)
def CMP_SEC_BIND_BIND_EPOCH (slot : Nat) : Fld := ⟨8 * (0x100400 + 4096 * slot) + 0, 32, 0⟩
def CMP_SEC_BIND_KEY_GEN (slot : Nat) : Fld := ⟨8 * (0x100400 + 4096 * slot) + 32, 8, 0⟩
-- BRL_STATUS (21_beryl_metering.md, R509)
def BRL_STATUS_CIVIL_VALID : Fld := ⟨8 * (0xd00000) + 0, 1, 0⟩
def BRL_STATUS_DISCONTINUITY : Fld := ⟨8 * (0xd00000) + 1, 1, 1⟩
def BRL_STATUS_LFREF_LOST : Fld := ⟨8 * (0xd00000) + 2, 1, 0⟩
def BRL_STATUS_UNLOCKED_SEEN : Fld := ⟨8 * (0xd00000) + 3, 1, 0⟩
def BRL_STATUS_FINAL_HELD : Fld := ⟨8 * (0xd00000) + 8, 9, 0⟩
def BRL_STATUS_POWER_EPOCH : Fld := ⟨8 * (0xd00000) + 32, 32, 0⟩
-- BRL_COUNTS (21_beryl_metering.md, R509)
def BRL_COUNTS_SEAL_CNT : Fld := ⟨8 * (0xd00008) + 0, 32, 0⟩
def BRL_COUNTS_TIME_DECL_CNT : Fld := ⟨8 * (0xd00008) + 32, 32, 0⟩
-- BRL_ELAPSED (21_beryl_metering.md, R509)
def BRL_ELAPSED : Fld := ⟨8 * (0xd00010) + 0, 64, 0⟩
-- BRL_CIVIL (21_beryl_metering.md, R509)
def BRL_CIVIL : Fld := ⟨8 * (0xd00018) + 0, 64, 0⟩
-- BRL_EVENTS (21_beryl_metering.md, R509)
def BRL_EVENTS (n : Nat) : Fld := ⟨8 * (0xd00040 + 8 * n) + 0, 64, 0⟩
-- MGT_IMAGE_RESULT (22_management.md, R531)
def MGT_IMAGE_RESULT_A_RESULT : Fld := ⟨8 * (0xc00000) + 0, 8, 0x0⟩
def MGT_IMAGE_RESULT_B_RESULT : Fld := ⟨8 * (0xc00000) + 8, 8, 0x0⟩
def MGT_IMAGE_RESULT_DELTA_RESULT : Fld := ⟨8 * (0xc00000) + 16, 8, 0x0⟩
def MGT_IMAGE_RESULT_A_TRIED : Fld := ⟨8 * (0xc00000) + 24, 1, 0⟩
def MGT_IMAGE_RESULT_B_TRIED : Fld := ⟨8 * (0xc00000) + 25, 1, 0⟩
def MGT_IMAGE_RESULT_RUNNING_SLOT : Fld := ⟨8 * (0xc00000) + 26, 1, 0⟩
def MGT_IMAGE_RESULT_IMAGE_FAIL_STK : Fld := ⟨8 * (0xc00000) + 27, 1, 0⟩
def MGT_IMAGE_RESULT_DELTA_FAIL_STK : Fld := ⟨8 * (0xc00000) + 28, 1, 0⟩
-- MGT_IMAGE_SKIP_CNT (22_management.md, R531)
def MGT_IMAGE_SKIP_CNT : Fld := ⟨8 * (0xc00008) + 0, 64, 0⟩
-- MGT_CHARGE (22_management.md, R531)
def MGT_CHARGE_HOLDER : Fld := ⟨8 * (0xc00010) + 0, 2, 0⟩
def MGT_CHARGE_EPOCH : Fld := ⟨8 * (0xc00010) + 2, 32, 0⟩
def MGT_CHARGE_W_HEALTHY : Fld := ⟨8 * (0xc00010) + 34, 1, 0⟩
def MGT_CHARGE_E_HEALTHY : Fld := ⟨8 * (0xc00010) + 35, 1, 0⟩
def MGT_CHARGE_DISAGREE_STK : Fld := ⟨8 * (0xc00010) + 36, 1, 0⟩
-- MGT_FW (22_management.md, R531)
def MGT_FW_RESTART : Fld := ⟨8 * (0xc00018) + 0, 1, 0⟩
def MGT_FW_FAILOVER : Fld := ⟨8 * (0xc00018) + 1, 1, 0⟩
def MGT_FW_MARGIN_PERIOD_D : Fld := ⟨8 * (0xc00018) + 2, 8, 0x0⟩
-- MGT_ALERT_EN (22_management.md, R531)
def MGT_ALERT_EN_SEV_EN : Fld := ⟨8 * (0xc00020) + 0, 4, 14⟩
-- MGT_EVENT_STATUS (22_management.md, R531)
def MGT_EVENT_STATUS_QUEUED : Fld := ⟨8 * (0xc00028) + 0, 13, 0⟩
def MGT_EVENT_STATUS_OVERFLOW_STK : Fld := ⟨8 * (0xc00028) + 13, 1, 0⟩
def MGT_EVENT_STATUS_NEXT_SEQ_LO : Fld := ⟨8 * (0xc00028) + 32, 32, 0⟩
-- MGT_EVENT_CNT (22_management.md, R531)
def MGT_EVENT_CNT (n : Nat) : Fld := ⟨8 * (0xc00040 + 8 * n) + 0, 64, 0⟩
-- FAB_FORM (23_startup.md, R547)
def FAB_FORM_PHASE : Fld := ⟨8 * (0x400030) + 0, 3, 0⟩
def FAB_FORM_DUP_STRAP_STK : Fld := ⟨8 * (0x400030) + 3, 1, 0⟩
def FAB_FORM_DUP_NODE_STK : Fld := ⟨8 * (0x400030) + 4, 1, 0⟩
def FAB_FORM_FORM_FAIL_STK : Fld := ⟨8 * (0x400030) + 5, 1, 0⟩
def FAB_FORM_LEVEL : Fld := ⟨8 * (0x400030) + 8, 4, 0⟩
def FAB_FORM_MASTER_NODE : Fld := ⟨8 * (0x400030) + 12, 12, 0⟩
def FAB_FORM_STANDBY_NODE : Fld := ⟨8 * (0x400030) + 24, 12, 0⟩
def FAB_FORM_NODES : Fld := ⟨8 * (0x400030) + 36, 11, 0⟩
def FAB_FORM_POOL_EPOCH : Fld := ⟨8 * (0x400030) + 48, 16, 0⟩
-- MGT_RETAIN_OK (23_startup.md, R547)
def MGT_RETAIN_OK : Fld := ⟨8 * (0xc00030) + 0, 64, 0⟩
-- MGT_RETAIN_FAIL (23_startup.md, R547)
def MGT_RETAIN_FAIL : Fld := ⟨8 * (0xc00038) + 0, 64, 0⟩
-- GLB_IDENTITY (24_register_reference.md, R552)
def GLB_IDENTITY_GENERATION : Fld := ⟨8 * (0x0) + 0, 8, 0x1⟩
def GLB_IDENTITY_STEP_NUM : Fld := ⟨8 * (0x0) + 8, 4, 0x0⟩
def GLB_IDENTITY_STEP_LETTER : Fld := ⟨8 * (0x0) + 12, 4, 0x0⟩
def GLB_IDENTITY_PART : Fld := ⟨8 * (0x0) + 16, 16, 0xe10⟩
def GLB_IDENTITY_ARCH : Fld := ⟨8 * (0x0) + 32, 16, 0x1⟩
-- GLB_UID (24_register_reference.md, R552)
def GLB_UID : Fld := ⟨8 * (0x8) + 0, 64, Config.fuseUid.toNat⟩
-- GLB_IGNORED_WRITE_CNT (24_register_reference.md, R552)
def GLB_IGNORED_WRITE_CNT : Fld := ⟨8 * (0x10) + 0, 64, 0⟩
-- GLB_BAD_ACCESS_CNT (24_register_reference.md, R552)
def GLB_BAD_ACCESS_CNT : Fld := ⟨8 * (0x18) + 0, 64, 0⟩
-- GLB_FEAT_OFFER (24_register_reference.md, R552)
def GLB_FEAT_OFFER (k : Nat) : Fld := ⟨8 * (0x20 + 8 * k) + 0, 64, featOffer k⟩
-- GLB_FEAT_ACCEPT (24_register_reference.md, R552)
def GLB_FEAT_ACCEPT (k : Nat) : Fld := ⟨8 * (0x40 + 8 * k) + 0, 64, featOffer k⟩
-- CMP_DELTA_HOLD_CNT (24_register_reference.md, R553)
def CMP_DELTA_HOLD_CNT (slot : Nat) : Fld := ⟨8 * (0x100008 + 4096 * slot) + 0, 64, 0⟩
-- CTU_STATUS (24_register_reference.md, R553)
def CTU_STATUS_TLB_USED : Fld := ⟨8 * (0x200000) + 0, 17, 0⟩
def CTU_STATUS_WALKERS_BUSY : Fld := ⟨8 * (0x200000) + 17, 7, 0⟩
def CTU_STATUS_XSTORE_USED : Fld := ⟨8 * (0x200000) + 24, 23, 0⟩
def CTU_STATUS_XSTORE_FULL_STK : Fld := ⟨8 * (0x200000) + 47, 1, 0⟩
-- CTU_EVENT_CNT (24_register_reference.md, R553)
def CTU_EVENT_CNT (n : Nat) : Fld := ⟨8 * (0x200040 + 8 * n) + 0, 64, 0⟩
-- CTU_ASID (24_register_reference.md, R553)
def CTU_ASID_VALID (a : Nat) : Fld := ⟨8 * (0x280000 + 8 * a) + 0, 1, 0⟩
def CTU_ASID_ROOT (a : Nat) : Fld := ⟨8 * (0x280000 + 8 * a) + 12, 44, 0⟩
-- DIR_CMP_USED (24_register_reference.md, R554)
def DIR_CMP_USED_HOME_USED (s : Nat) : Fld := ⟨8 * (0x300100 + 8 * s) + 0, 23, 0⟩
def DIR_CMP_USED_FILTER_USED (s : Nat) : Fld := ⟨8 * (0x300100 + 8 * s) + 24, 22, 0⟩
-- TIL_ECC (24_register_reference.md, R554)
def TIL_ECC_ECC_CE_STK (t : Nat) : Fld := ⟨8 * (0x700000 + 16384 * t) + 0, 1, 0⟩
def TIL_ECC_ECC_UE_STK (t : Nat) : Fld := ⟨8 * (0x700000 + 16384 * t) + 1, 1, 0⟩
def TIL_ECC_CE_CNT (t : Nat) : Fld := ⟨8 * (0x700000 + 16384 * t) + 32, 32, 0⟩
-- TIL_STATE (24_register_reference.md, R554)
def TIL_STATE_POWER (t : Nat) : Fld := ⟨8 * (0x700008 + 16384 * t) + 0, 2, 0⟩
def TIL_STATE_INCARNATION (t : Nat) : Fld := ⟨8 * (0x700008 + 16384 * t) + 2, 16, 0⟩
-- LRC_STATUS (24_register_reference.md, R554)
def LRC_STATUS_PRIMARY_OK : Fld := ⟨8 * (0xe00000) + 0, 1, 0⟩
def LRC_STATUS_MIRROR_OK : Fld := ⟨8 * (0xe00000) + 1, 1, 0⟩
def LRC_STATUS_REBUILT_STK : Fld := ⟨8 * (0xe00000) + 2, 1, 0⟩
def LRC_STATUS_MIRROR_ERR_STK : Fld := ⟨8 * (0xe00000) + 3, 1, 0⟩
def LRC_STATUS_FOLD_STK : Fld := ⟨8 * (0xe00000) + 4, 1, 0⟩
def LRC_STATUS_SUM_SEQ_LO : Fld := ⟨8 * (0xe00000) + 32, 32, 0⟩
-- LRC_LOG_NEXT (24_register_reference.md, R554)
def LRC_LOG_NEXT : Fld := ⟨8 * (0xe00008) + 0, 64, 0⟩
-- LRC_POWERED_S (24_register_reference.md, R554)
def LRC_POWERED_S : Fld := ⟨8 * (0xe00010) + 0, 64, 0⟩

end Sys2Proof.Machine
end

