-- ==== Sys2Proof/Machine/RegTable.lean ====
section
/-! DEFINITION. The register table: every register of the device register space with its fields and their access
types (R12), block by block, written from the register tables of the spec. -/

namespace Sys2Proof.Machine

/-- The access types of R12; `Hu`: hardware also updates the field. -/
inductive Access where
  | ro | roHu | rw | rwHu | rws | w1cHu | w1sHu | cnt
  deriving DecidableEq, Repr

/-- One register, or one array of registers: its address, the (stride, count) of each index, its fields for given indices. -/
structure RegDef where
  base : Nat
  dims : List (Nat × Nat)
  flds : (Nat → Nat) → List (Fld × Access)

/-- The registers of the CMP block. -/
def regsCmp : List RegDef := [
  ⟨0x100000, [(4096, 64)], fun i => [(CMP_STATE_CMP_ID (i 0), .roHu),
    (CMP_STATE_SLOT (i 0), .roHu),
    (RSVD (0x100000 + 4096 * i 0) 22 2, .ro),
    (CMP_STATE_STATE (i 0), .roHu),
    (CMP_STATE_COHERENCE (i 0), .roHu),
    (RSVD (0x100000 + 4096 * i 0) 27 5, .ro),
    (CMP_STATE_SERIAL_LO (i 0), .roHu)]⟩,
  ⟨0x100040, [(4096, 64)], fun i => [(CMP_HEAT_CTL_EPOCH (i 0), .rw),
    (CMP_HEAT_CTL_FREEZE (i 0), .rw),
    (CMP_HEAT_CTL_CLEAR (i 0), .w1sHu),
    (RSVD (0x100040 + 4096 * i 0) 6 58, .ro)]⟩,
  ⟨0x100048, [(4096, 64)], fun i => [(CMP_NW_READ_CNT (i 0), .cnt)]⟩,
  ⟨0x100050, [(4096, 64)], fun i => [(CMP_UNBACKED_CNT (i 0), .cnt)]⟩,
  ⟨0x100100, [(4096, 64), (8, 9)], fun i => [(CMP_STALL_CNT (i 0) (i 1), .cnt)]⟩,
  ⟨0x100060, [(4096, 64)], fun i => [(CMP_HARVEST_USE_BLOCKS_USED (i 0), .roHu),
    (CMP_HARVEST_USE_LIVE_HARVESTS (i 0), .roHu),
    (CMP_HARVEST_USE_WARN_STK (i 0), .w1cHu),
    (CMP_HARVEST_USE_EXHAUST_STK (i 0), .w1cHu),
    (RSVD (0x100060 + 4096 * i 0) 50 14, .ro)]⟩,
  ⟨0x100068, [(4096, 64)], fun i => [(CMP_HARVEST_CLOSED_CNT (i 0), .cnt)]⟩,
  ⟨0x100088, [(4096, 64)], fun i => [(CMP_HEARTBEAT_AGENT (i 0), .rw),
    (CMP_HEARTBEAT_BEAT (i 0), .w1sHu),
    (RSVD (0x100088 + 4096 * i 0) 9 55, .ro)]⟩,
  ⟨0x100080, [(4096, 64)], fun i => [(CMP_JOB_CTL_JOB (i 0), .rw),
    (CMP_JOB_CTL_RESUME (i 0), .w1sHu),
    (CMP_JOB_CTL_STOPPED (i 0), .roHu),
    (RSVD (0x100080 + 4096 * i 0) 18 46, .ro)]⟩,
  ⟨0x100070, [(4096, 64)], fun i => [(CMP_BITTERN_NEW_CNT (i 0), .cnt)]⟩,
  ⟨0x100078, [(4096, 64)], fun i => [(CMP_BITTERN_USE_CNT (i 0), .cnt)]⟩,
  ⟨0x100200, [(4096, 64), (8, 4)], fun i => [(CMP_FEAT_OFFER (i 0) (i 1), .roHu)]⟩,
  ⟨0x100300, [(4096, 64)], fun i => [(CMP_ASID_CMD_ASID (i 0), .rw),
    (CMP_ASID_CMD_OP (i 0), .rw),
    (RSVD (0x100300 + 4096 * i 0) 19 1, .ro),
    (CMP_ASID_CMD_GO (i 0), .w1sHu),
    (RSVD (0x100300 + 4096 * i 0) 21 3, .ro),
    (CMP_ASID_CMD_RESULT (i 0), .roHu),
    (RSVD (0x100300 + 4096 * i 0) 28 36, .ro)]⟩,
  ⟨0x100308, [(4096, 64)], fun i => [(RSVD (0x100308 + 4096 * i 0) 0 12, .ro),
    (CMP_ASID_ROOT_ROOT (i 0), .rw),
    (RSVD (0x100308 + 4096 * i 0) 56 8, .ro)]⟩,
  ⟨0x100310, [(4096, 64)], fun i => [(CMP_XLAT_FAULT_VA (i 0), .roHu)]⟩,
  ⟨0x100318, [(4096, 64)], fun i => [(CMP_XLAT_FAULT_INFO_ASID (i 0), .roHu),
    (CMP_XLAT_FAULT_INFO_LEVEL (i 0), .roHu),
    (CMP_XLAT_FAULT_INFO_WRITE (i 0), .roHu),
    (CMP_XLAT_FAULT_INFO_REASON (i 0), .roHu),
    (CMP_XLAT_FAULT_INFO_FAULT_STK (i 0), .w1cHu),
    (CMP_XLAT_FAULT_INFO_OVERRUN_STK (i 0), .w1cHu),
    (RSVD (0x100318 + 4096 * i 0) 26 38, .ro)]⟩,
  ⟨0x100320, [(4096, 64), (8, 4)], fun i => [(CMP_XLAT_EVENT_CNT (i 0) (i 1), .cnt)]⟩,
  ⟨0x100400, [(4096, 64)], fun i => [(CMP_SEC_BIND_BIND_EPOCH (i 0), .roHu),
    (CMP_SEC_BIND_KEY_GEN (i 0), .roHu),
    (RSVD (0x100400 + 4096 * i 0) 40 24, .ro)]⟩,
  ⟨0x100008, [(4096, 64)], fun i => [(CMP_DELTA_HOLD_CNT (i 0), .cnt)]⟩]

/-- The registers of the DIR block. -/
def regsDir : List RegDef := [
  ⟨0x300000, [], fun _ => [(DIR_STATUS_HOME_USED, .roHu),
    (RSVD (0x300000) 23 1, .ro),
    (DIR_STATUS_FILTER_USED, .roHu),
    (DIR_STATUS_UNEXPECTED_STK, .w1cHu),
    (DIR_STATUS_SNOOP_FAIL_STK, .w1cHu),
    (RSVD (0x300000) 48 16, .ro)]⟩,
  ⟨0x300008, [(8, 5)], fun i => [(DIR_EVENT_CNT (i 0), .cnt)]⟩,
  ⟨0x300100, [(8, 64)], fun i => [(DIR_CMP_USED_HOME_USED (i 0), .roHu),
    (RSVD (0x300100 + 8 * i 0) 23 1, .ro),
    (DIR_CMP_USED_FILTER_USED (i 0), .roHu),
    (RSVD (0x300100 + 8 * i 0) 46 18, .ro)]⟩]

/-- The registers of the FAB block. -/
def regsFab : List RegDef := [
  ⟨0x408000, [(8, 4096)], fun i => [(FAB_ROUTE_PRIMARY (i 0), .rw),
    (FAB_ROUTE_PRIM_HOPS (i 0), .rw),
    (FAB_ROUTE_ALTERNATE (i 0), .rw),
    (FAB_ROUTE_ALT_HOPS (i 0), .rw),
    (FAB_ROUTE_PRIM_VALID (i 0), .rw),
    (FAB_ROUTE_ALT_VALID (i 0), .rw),
    (FAB_ROUTE_USE_ALT (i 0), .rwHu),
    (FAB_ROUTE_UNREACHABLE (i 0), .rwHu),
    (FAB_ROUTE_BULK_WAYS (i 0), .rw),
    (RSVD (0x408000 + 8 * i 0) 22 2, .ro),
    (FAB_ROUTE_BULK_PORT1 (i 0), .rw),
    (RSVD (0x408000 + 8 * i 0) 29 3, .ro),
    (FAB_ROUTE_BULK_PORT2 (i 0), .rw),
    (RSVD (0x408000 + 8 * i 0) 37 3, .ro),
    (FAB_ROUTE_BULK_PORT3 (i 0), .rw),
    (RSVD (0x408000 + 8 * i 0) 45 19, .ro)]⟩,
  ⟨0x400000, [], fun _ => [(FAB_NODE_NODE_ID, .roHu),
    (RSVD (0x400000) 12 4, .ro),
    (FAB_NODE_INCARNATION, .roHu),
    (FAB_NODE_MASTER, .roHu),
    (FAB_NODE_STANDBY, .roHu),
    (FAB_NODE_JOINED, .roHu),
    (RSVD (0x400000) 35 29, .ro)]⟩,
  ⟨0x400008, [], fun _ => [(FAB_STATUS_MALFORMED_STK, .w1cHu),
    (FAB_STATUS_HOP_LIMIT_STK, .w1cHu),
    (FAB_STATUS_AUDIT_STK, .w1cHu),
    (FAB_STATUS_LINK_DOWN_STK, .w1cHu),
    (RSVD (0x400008) 4 60, .ro)]⟩,
  ⟨0x400010, [], fun _ => [(FAB_HOTLINE_CNT, .cnt)]⟩,
  ⟨0x400018, [], fun _ => [(RSVD (0x400018) 0 6, .ro),
    (FAB_HOTLINE_ADDR_LINE, .roHu),
    (RSVD (0x400018) 56 8, .ro)]⟩,
  ⟨0x400020, [], fun _ => [(FAB_HOTLINE_INFO_CMP_ID, .roHu),
    (FAB_HOTLINE_INFO_DEPTH, .roHu),
    (RSVD (0x400020) 31 33, .ro)]⟩,
  ⟨0x400028, [], fun _ => [(FAB_STALE_DROP_CNT, .cnt)]⟩,
  ⟨0x400040, [(8, 7)], fun i => [(FAB_EVENT_CNT (i 0), .cnt)]⟩,
  ⟨0x410000, [(8, 1024)], fun i => [(FAB_PEER_INC_INC0 (i 0), .rwHu),
    (FAB_PEER_INC_INC1 (i 0), .rwHu),
    (FAB_PEER_INC_INC2 (i 0), .rwHu),
    (FAB_PEER_INC_INC3 (i 0), .rwHu)]⟩,
  ⟨0x400030, [], fun _ => [(FAB_FORM_PHASE, .roHu),
    (FAB_FORM_DUP_STRAP_STK, .w1cHu),
    (FAB_FORM_DUP_NODE_STK, .w1cHu),
    (FAB_FORM_FORM_FAIL_STK, .w1cHu),
    (RSVD (0x400030) 6 2, .ro),
    (FAB_FORM_LEVEL, .roHu),
    (FAB_FORM_MASTER_NODE, .roHu),
    (FAB_FORM_STANDBY_NODE, .roHu),
    (FAB_FORM_NODES, .roHu),
    (RSVD (0x400030) 47 1, .ro),
    (FAB_FORM_POOL_EPOCH, .roHu)]⟩]

/-- The registers of the SLC block. -/
def regsSlc : List RegDef := [
  ⟨0x1000000, [(256, 65536)], fun i => [(SLC_CTL_ENABLE (i 0), .rwHu),
    (SLC_CTL_SQ_LOC (i 0), .rw),
    (SLC_CTL_CQ_LOC (i 0), .rw),
    (RSVD (0x1000000 + 256 * i 0) 3 1, .ro),
    (SLC_CTL_SQ_LOG2 (i 0), .rw),
    (SLC_CTL_CQ_LOG2 (i 0), .rw),
    (SLC_CTL_PRIO (i 0), .rw),
    (SLC_CTL_WEIGHT (i 0), .rw),
    (SLC_CTL_BW_CLASS (i 0), .rw),
    (RSVD (0x1000000 + 256 * i 0) 23 1, .ro),
    (SLC_CTL_PORT (i 0), .rw),
    (RSVD (0x1000000 + 256 * i 0) 29 3, .ro),
    (SLC_CTL_JOB (i 0), .rw),
    (SLC_CTL_ASID (i 0), .rw)]⟩,
  ⟨0x1000008, [(256, 65536)], fun i => [(RSVD (0x1000008 + 256 * i 0) 0 12, .ro),
    (SLC_SQ_BASE_BASE (i 0), .rw)]⟩,
  ⟨0x1000010, [(256, 65536)], fun i => [(RSVD (0x1000010 + 256 * i 0) 0 12, .ro),
    (SLC_CQ_BASE_BASE (i 0), .rw)]⟩,
  ⟨0x1000018, [(256, 65536)], fun i => [(SLC_SQ_TAIL_TAIL (i 0), .rw),
    (RSVD (0x1000018 + 256 * i 0) 16 48, .ro)]⟩,
  ⟨0x1000020, [(256, 65536)], fun i => [(SLC_CQ_HEAD_HEAD (i 0), .rw),
    (RSVD (0x1000020 + 256 * i 0) 16 48, .ro)]⟩,
  ⟨0x1000028, [(256, 65536)], fun i => [(SLC_STATUS_SQ_HEAD (i 0), .roHu),
    (SLC_STATUS_CQ_TAIL (i 0), .roHu),
    (SLC_STATUS_STATE (i 0), .roHu),
    (SLC_STATUS_DB_ERR_STK (i 0), .w1cHu),
    (SLC_STATUS_RING_ERR_STK (i 0), .w1cHu),
    (SLC_STATUS_FEAT_ERR_STK (i 0), .w1cHu),
    (SLC_STATUS_IRQ_DROP_STK (i 0), .w1cHu),
    (RSVD (0x1000028 + 256 * i 0) 39 1, .ro),
    (SLC_STATUS_ENABLE_ERR (i 0), .roHu),
    (RSVD (0x1000028 + 256 * i 0) 44 4, .ro),
    (SLC_STATUS_IN_FLIGHT (i 0), .roHu),
    (SLC_STATUS_PHASE (i 0), .roHu),
    (RSVD (0x1000028 + 256 * i 0) 58 6, .ro)]⟩,
  ⟨0x1000030, [(256, 65536)], fun i => [(SLC_IRQ_MODE (i 0), .rw),
    (SLC_IRQ_ERR_NOW (i 0), .rw),
    (SLC_IRQ_ARMED (i 0), .rwHu),
    (RSVD (0x1000030 + 256 * i 0) 4 12, .ro),
    (SLC_IRQ_VECTOR (i 0), .rw),
    (RSVD (0x1000030 + 256 * i 0) 27 5, .ro),
    (SLC_IRQ_COUNT_THRESH (i 0), .rw),
    (SLC_IRQ_TIMER_US (i 0), .rw),
    (RSVD (0x1000030 + 256 * i 0) 50 14, .ro)]⟩,
  ⟨0x10000a0, [(256, 65536), (8, 4)], fun i => [(SLC_FEAT_ACCEPT (i 0) (i 1), .rw)]⟩,
  ⟨0x1000040, [(256, 65536), (8, 9)], fun i => [(SLC_STALL_CNT (i 0) (i 1), .cnt)]⟩,
  ⟨0x1000088, [(256, 65536)], fun i => [(SLC_DONE_CNT (i 0), .cnt)]⟩,
  ⟨0x1000090, [(256, 65536)], fun i => [(SLC_FAIL_CNT (i 0), .cnt)]⟩,
  ⟨0x1000098, [(256, 65536)], fun i => [(SLC_BYTES_CNT (i 0), .cnt)]⟩,
  ⟨0x10000c0, [(256, 65536)], fun i => [(SLC_CLASS_CLAMP_CNT (i 0), .cnt)]⟩]

/-- The registers of the ENG block. -/
def regsEng : List RegDef := [
  ⟨0x600100, [(65536, 6), (8, 9)], fun i => [(ENG_STALL_CNT (i 0) (i 1), .cnt)]⟩,
  ⟨0x620000, [], fun _ => [(ENG_RED_STATUS_COLL_USED, .roHu),
    (ENG_RED_STATUS_TIMEOUT_STK, .w1cHu),
    (ENG_RED_STATUS_MISMATCH_STK, .w1cHu),
    (ENG_RED_STATUS_TABLE_FULL_STK, .w1cHu),
    (RSVD (0x620000) 16 48, .ro)]⟩,
  ⟨0x620010, [(8, 8)], fun i => [(ENG_RED_EVENT_CNT (i 0), .cnt)]⟩,
  ⟨0x630000, [], fun _ => [(ENG_GTH_STATUS_MERGE_USED, .roHu),
    (ENG_GTH_STATUS_PASS_STK, .w1cHu),
    (RSVD (0x630000) 27 37, .ro)]⟩,
  ⟨0x630008, [], fun _ => [(ENG_GTH_HOTROW_CMP_ID, .roHu),
    (ENG_GTH_HOTROW_CONTRIB, .roHu),
    (RSVD (0x630008) 48 16, .ro)]⟩,
  ⟨0x630010, [(8, 6)], fun i => [(ENG_GTH_DROP_CNT (i 0), .cnt)]⟩,
  ⟨0x630040, [(8, 6)], fun i => [(ENG_GTH_EVENT_CNT (i 0), .cnt)]⟩,
  ⟨0x640000, [], fun _ => [(ENG_RAK_STATUS_CAND_USED, .roHu),
    (ENG_RAK_STATUS_FORCING, .roHu),
    (ENG_RAK_STATUS_FORCED_STK, .w1cHu),
    (ENG_RAK_STATUS_BUDGET_CUT_STK, .w1cHu),
    (RSVD (0x640000) 28 36, .ro)]⟩,
  ⟨0x640010, [(8, 5)], fun i => [(ENG_RAK_DROP_CNT (i 0), .cnt)]⟩,
  ⟨0x640040, [(8, 6)], fun i => [(ENG_RAK_EVENT_CNT (i 0), .cnt)]⟩,
  ⟨0x650000, [], fun _ => [(ENG_ATT_STATUS_RECOMPUTE_STK, .w1cHu),
    (ENG_ATT_STATUS_NONFINITE_STK, .w1cHu),
    (RSVD (0x650000) 2 62, .ro)]⟩,
  ⟨0x650010, [(8, 2)], fun i => [(ENG_ATT_DROP_CNT (i 0), .cnt)]⟩,
  ⟨0x650040, [(8, 6)], fun i => [(ENG_ATT_EVENT_CNT (i 0), .cnt)]⟩,
  ⟨0x600040, [(8, 5)], fun i => [(ENG_MOV_EVENT_CNT (i 0), .cnt)]⟩,
  ⟨0x610040, [(8, 5)], fun i => [(ENG_CHK_EVENT_CNT (i 0), .cnt)]⟩]

/-- The registers of the TIL block. -/
def regsTil : List RegDef := [
  ⟨0x700100, [(16384, 32)], fun i => [(TIL_PAN_SPARE_SP0_VAULT (i 0), .roHu),
    (TIL_PAN_SPARE_SP1_VAULT (i 0), .roHu),
    (TIL_PAN_SPARE_SP0_BAD (i 0), .roHu),
    (TIL_PAN_SPARE_SP1_BAD (i 0), .roHu),
    (TIL_PAN_SPARE_PERM (i 0), .roHu),
    (TIL_PAN_SPARE_PERM_VAULT (i 0), .roHu),
    (TIL_PAN_SPARE_SUBST_STK (i 0), .w1cHu),
    (TIL_PAN_SPARE_RETIRED (i 0), .roHu),
    (RSVD (0x700100 + 16384 * i 0) 28 36, .ro)]⟩,
  ⟨0x700108, [(16384, 32)], fun i => [(TIL_ADOPT_SELFTEST (i 0), .roHu),
    (TIL_ADOPT_ADOPTING (i 0), .roHu),
    (TIL_ADOPT_PARTNER (i 0), .roHu),
    (RSVD (0x700108 + 16384 * i 0) 7 57, .ro)]⟩,
  ⟨0x700128, [(16384, 32), (8, 2)], fun i => [(TIL_PERM_VAULT0 (i 0) (i 1), .roHu),
    (TIL_PERM_VALID0 (i 0) (i 1), .roHu),
    (TIL_PERM_VAULT1 (i 0) (i 1), .roHu),
    (TIL_PERM_VALID1 (i 0) (i 1), .roHu),
    (TIL_PERM_VAULT2 (i 0) (i 1), .roHu),
    (TIL_PERM_VALID2 (i 0) (i 1), .roHu),
    (TIL_PERM_VAULT3 (i 0) (i 1), .roHu),
    (TIL_PERM_VALID3 (i 0) (i 1), .roHu),
    (TIL_PERM_VAULT4 (i 0) (i 1), .roHu),
    (TIL_PERM_VALID4 (i 0) (i 1), .roHu),
    (TIL_PERM_VAULT5 (i 0) (i 1), .roHu),
    (TIL_PERM_VALID5 (i 0) (i 1), .roHu),
    (TIL_PERM_VAULT6 (i 0) (i 1), .roHu),
    (TIL_PERM_VALID6 (i 0) (i 1), .roHu),
    (TIL_PERM_VAULT7 (i 0) (i 1), .roHu),
    (TIL_PERM_VALID7 (i 0) (i 1), .roHu)]⟩,
  ⟨0x700110, [(16384, 32)], fun i => [(TIL_SUBST_CNT (i 0), .cnt)]⟩,
  ⟨0x700118, [(16384, 32)], fun i => [(TIL_ADOPT_CNT (i 0), .cnt)]⟩,
  ⟨0x700120, [(16384, 32)], fun i => [(TIL_STALE_DROP_CNT (i 0), .cnt)]⟩,
  ⟨0x700000, [(16384, 32)], fun i => [(TIL_ECC_ECC_CE_STK (i 0), .w1cHu),
    (TIL_ECC_ECC_UE_STK (i 0), .w1cHu),
    (RSVD (0x700000 + 16384 * i 0) 2 30, .ro),
    (TIL_ECC_CE_CNT (i 0), .cnt)]⟩,
  ⟨0x700008, [(16384, 32)], fun i => [(TIL_STATE_POWER (i 0), .roHu),
    (TIL_STATE_INCARNATION (i 0), .roHu),
    (RSVD (0x700008 + 16384 * i 0) 18 46, .ro)]⟩]

/-- The registers of the PRT block. -/
def regsPrt : List RegDef := [
  ⟨0x500000, [(16384, 24)], fun i => [(PRT_STATUS_ROLE (i 0), .roHu),
    (PRT_STATUS_LINK_UP (i 0), .roHu),
    (PRT_STATUS_WIDTH (i 0), .roHu),
    (PRT_STATUS_RATE (i 0), .roHu),
    (PRT_STATUS_FLIT256 (i 0), .roHu),
    (PRT_STATUS_MEM_OFF (i 0), .roHu),
    (PRT_STATUS_PARITY_ON (i 0), .roHu),
    (PRT_STATUS_REBUILT_LANE (i 0), .roHu),
    (PRT_STATUS_MISWIRED_STK (i 0), .w1cHu),
    (PRT_STATUS_LANE_LOSS_STK (i 0), .w1cHu),
    (PRT_STATUS_DOWNGRADE_STK (i 0), .w1cHu),
    (PRT_STATUS_DOWN_STK (i 0), .w1cHu),
    (PRT_STATUS_UNSUPPORTED_STK (i 0), .w1cHu),
    (RSVD (0x500000 + 16384 * i 0) 21 43, .ro)]⟩,
  ⟨0x500008, [(16384, 24)], fun i => [(PRT_CTL_RETRAIN (i 0), .w1sHu),
    (PRT_CTL_MARGIN_NOW (i 0), .w1sHu),
    (RSVD (0x500008 + 16384 * i 0) 2 62, .ro)]⟩,
  ⟨0x500040, [(16384, 24), (8, 9)], fun i => [(PRT_LANE_MARGIN_EYE_W (i 0) (i 1), .roHu),
    (PRT_LANE_MARGIN_EYE_H (i 0) (i 1), .roHu),
    (PRT_LANE_MARGIN_LOCK (i 0) (i 1), .roHu),
    (PRT_LANE_MARGIN_USE (i 0) (i 1), .roHu),
    (RSVD (0x500040 + 16384 * i 0 + 8 * i 1) 19 45, .ro)]⟩,
  ⟨0x500090, [(16384, 24)], fun i => [(PRT_LANE_EVENT_LANE (i 0), .roHu),
    (PRT_LANE_EVENT_CAUSE (i 0), .roHu),
    (PRT_LANE_EVENT_ACTION (i 0), .roHu),
    (PRT_LANE_EVENT_EYE_W (i 0), .roHu),
    (PRT_LANE_EVENT_EYE_H (i 0), .roHu),
    (RSVD (0x500090 + 16384 * i 0) 24 40, .ro)]⟩,
  ⟨0x500100, [(16384, 24), (8, 9)], fun i => [(PRT_EVENT_CNT (i 0) (i 1), .cnt)]⟩,
  ⟨0x500200, [(16384, 24), (8, 16)], fun i => [(PRT_AGENT_VALID (i 0) (i 1), .rw),
    (PRT_AGENT_MATCH_ANY (i 0) (i 1), .rw),
    (PRT_AGENT_SLOT (i 0) (i 1), .rw),
    (PRT_AGENT_AGENT (i 0) (i 1), .rw),
    (PRT_AGENT_BI_ID (i 0) (i 1), .rw),
    (PRT_AGENT_REQ_ID (i 0) (i 1), .rw),
    (RSVD (0x500200 + 16384 * i 0 + 8 * i 1) 44 20, .ro)]⟩]

/-- The registers of the CLK block. -/
def regsClk : List RegDef := [
  ⟨0x800000, [], fun _ => [(CLK_STATUS_PLAN, .roHu),
    (CLK_STATUS_XREF_A_OK, .roHu),
    (CLK_STATUS_XREF_B_OK, .roHu),
    (CLK_STATUS_LFREF_OK, .roHu),
    (CLK_STATUS_IRO_QUAL, .roHu),
    (CLK_STATUS_CORE_XREF, .roHu),
    (CLK_STATUS_SERDES_XREF, .roHu),
    (CLK_STATUS_XREF_A_FAIL_STK, .w1cHu),
    (CLK_STATUS_XREF_B_FAIL_STK, .w1cHu),
    (CLK_STATUS_LFREF_FAIL_STK, .w1cHu),
    (CLK_STATUS_IRO_FAIL_STK, .w1cHu),
    (CLK_STATUS_FALLBACK_STK, .w1cHu),
    (CLK_STATUS_HOLD_STK, .w1cHu),
    (CLK_STATUS_NMI_PENDING, .roHu),
    (RSVD (0x800000) 15 49, .ro)]⟩,
  ⟨0x800008, [], fun _ => [(CLK_CTL_RETURN, .w1sHu),
    (CLK_CTL_RETURN_REF, .rw),
    (RSVD (0x800008) 2 62, .ro)]⟩,
  ⟨0x800010, [(8, 5)], fun i => [(CLK_EVENT_CNT (i 0), .cnt)]⟩]

/-- The registers of the PWR block. -/
def regsPwr : List RegDef := [
  ⟨0x900000, [], fun _ => [(PWR_STATUS_POWER_W, .roHu),
    (PWR_STATUS_GOV_CODE, .roHu),
    (PWR_STATUS_LIMIT, .roHu),
    (PWR_STATUS_REFUSING, .roHu),
    (PWR_STATUS_THERMAL, .roHu),
    (PWR_STATUS_GOV_STK, .w1cHu),
    (PWR_STATUS_REFUSED_STK, .w1cHu),
    (PWR_STATUS_THERMAL_STK, .w1cHu),
    (PWR_STATUS_BUDGET_WARN_STK, .w1cHu),
    (RSVD (0x900000) 27 37, .ro)]⟩,
  ⟨0x900008, [], fun _ => [(PWR_DOMAIN_ON, .roHu),
    (RSVD (0x900008) 40 24, .ro)]⟩,
  ⟨0x900010, [], fun _ => [(PWR_RETAIN_SELF_REFRESH, .roHu),
    (RSVD (0x900010) 32 32, .ro)]⟩,
  ⟨0x900018, [], fun _ => [(PWR_WAKE_HOLD_ON, .rw),
    (RSVD (0x900018) 32 32, .ro)]⟩,
  ⟨0x900020, [], fun _ => [(PWR_BURST_USED_S, .roHu),
    (PWR_BURST_GRANTED_S, .roHu)]⟩,
  ⟨0x900028, [], fun _ => [(PWR_RENEW_RENEW, .w1sHu),
    (PWR_RENEW_RESULT, .roHu),
    (RSVD (0x900028) 3 61, .ro)]⟩,
  ⟨0x900040, [(8, 6)], fun i => [(PWR_EVENT_CNT (i 0), .cnt)]⟩,
  ⟨0x900100, [(8, 4)], fun i => [(PWR_TILE_CODE (i 0), .roHu)]⟩]

/-- The registers of the GLB block. -/
def regsGlb : List RegDef := [
  ⟨0x100, [], fun _ => [(GLB_PKG_STATUS_STRAP_ID, .roHu),
    (GLB_PKG_STATUS_STRAP_MCAP, .roHu),
    (GLB_PKG_STATUS_STRAP_BOOT, .roHu),
    (GLB_PKG_STATUS_STRAP_I3C, .roHu),
    (RSVD (0x100) 15 1, .ro),
    (GLB_PKG_STATUS_PWRGD_MAIN, .roHu),
    (GLB_PKG_STATUS_ALERT, .roHu),
    (GLB_PKG_STATUS_FAULT, .roHu),
    (GLB_PKG_STATUS_THERMTRIP, .roHu),
    (GLB_PKG_STATUS_MAIN_LOSS_STK, .w1cHu),
    (GLB_PKG_STATUS_PMBUS_ERR_STK, .w1cHu),
    (GLB_PKG_STATUS_SEQ_FAIL_STK, .w1cHu),
    (RSVD (0x100) 23 41, .ro)]⟩,
  ⟨0x0, [], fun _ => [(GLB_IDENTITY_GENERATION, .ro),
    (GLB_IDENTITY_STEP_NUM, .ro),
    (GLB_IDENTITY_STEP_LETTER, .ro),
    (GLB_IDENTITY_PART, .ro),
    (GLB_IDENTITY_ARCH, .ro),
    (RSVD (0x0) 48 16, .ro)]⟩,
  ⟨0x8, [], fun _ => [(GLB_UID, .ro)]⟩,
  ⟨0x10, [], fun _ => [(GLB_IGNORED_WRITE_CNT, .cnt)]⟩,
  ⟨0x18, [], fun _ => [(GLB_BAD_ACCESS_CNT, .cnt)]⟩,
  ⟨0x20, [(8, 4)], fun i => [(GLB_FEAT_OFFER (i 0), .ro)]⟩,
  ⟨0x40, [(8, 4)], fun i => [(GLB_FEAT_ACCEPT (i 0), .rws)]⟩]

/-- The registers of the RAS block. -/
def regsRas : List RegDef := [
  ⟨0xa00000, [], fun _ => [(RAS_STATUS_AUDIT_CODE, .roHu),
    (RAS_STATUS_AUDIT_STK, .w1cHu),
    (RAS_STATUS_FATAL_INT_STK, .w1cHu),
    (RAS_STATUS_LAYER_SPARE_STK, .w1cHu),
    (RAS_STATUS_SPARE_EXHAUST_STK, .w1cHu),
    (RAS_STATUS_AORC_FAIL_STK, .w1cHu),
    (RAS_STATUS_CFG_FIX_STK, .w1cHu),
    (RAS_STATUS_SPARING, .roHu),
    (RAS_STATUS_SPARE_LAYER, .roHu),
    (RSVD (0xa00000) 19 45, .ro)]⟩,
  ⟨0xa00008, [], fun _ => [(RAS_CTL_SUSPECT_POLICY, .rw),
    (RAS_CTL_SCRUB_PERIOD_H, .rw),
    (RAS_CTL_SELFTEST_PERIOD_MIN, .rw),
    (RAS_CTL_LAYER, .rw),
    (RAS_CTL_LAYER_SPARE_NOW, .w1sHu),
    (RAS_CTL_LAYER_CE_LIMIT, .rw),
    (RSVD (0xa00008) 38 26, .ro)]⟩,
  ⟨0xa00010, [], fun _ => [(RAS_FAIL_CMD_SLOT, .rw),
    (RAS_FAIL_CMD_FAIL, .w1sHu),
    (RSVD (0xa00010) 7 57, .ro)]⟩,
  ⟨0xa00018, [], fun _ => [(RAS_PAN_SEL_PAN, .rw),
    (RAS_PAN_SEL_PAN_CLEAR, .w1sHu),
    (RSVD (0xa00018) 13 51, .ro)]⟩,
  ⟨0xa00020, [], fun _ => [(RAS_PAN_INFO_VSTEP, .roHu),
    (RAS_PAN_INFO_STRIKES, .roHu),
    (RAS_PAN_INFO_TILE_DROP, .roHu),
    (RAS_PAN_INFO_PHYS, .roHu),
    (RAS_PAN_INFO_SUSPECT, .roHu),
    (RSVD (0xa00020) 17 47, .ro)]⟩,
  ⟨0xa00040, [(8, 12)], fun i => [(RAS_ERR_CNT (i 0), .cnt)]⟩]

/-- The registers of the SEC block. -/
def regsSec : List RegDef := [
  ⟨0xb00000, [], fun _ => [(SEC_STATUS_DEBUG_UNLOCKED, .roHu),
    (SEC_STATUS_REQUIRE_PQ, .roHu),
    (SEC_STATUS_ENTROPY_STK, .w1cHu),
    (SEC_STATUS_UNLOCK_STK, .w1cHu),
    (SEC_STATUS_UNLOCK_CNT, .roHu),
    (SEC_STATUS_IMGKEY, .roHu),
    (SEC_STATUS_PEER_AUTH_STK, .w1cHu),
    (RSVD (0xb00000) 21 43, .ro)]⟩,
  ⟨0xb00008, [], fun _ => [(SEC_KEY_LIVE, .roHu)]⟩,
  ⟨0xb00040, [(8, 4)], fun i => [(SEC_EVENT_CNT (i 0), .cnt)]⟩]

/-- The registers of the BRL block. -/
def regsBrl : List RegDef := [
  ⟨0xd00000, [], fun _ => [(BRL_STATUS_CIVIL_VALID, .roHu),
    (BRL_STATUS_DISCONTINUITY, .roHu),
    (BRL_STATUS_LFREF_LOST, .roHu),
    (BRL_STATUS_UNLOCKED_SEEN, .roHu),
    (RSVD (0xd00000) 4 4, .ro),
    (BRL_STATUS_FINAL_HELD, .roHu),
    (RSVD (0xd00000) 17 15, .ro),
    (BRL_STATUS_POWER_EPOCH, .roHu)]⟩,
  ⟨0xd00008, [], fun _ => [(BRL_COUNTS_SEAL_CNT, .roHu),
    (BRL_COUNTS_TIME_DECL_CNT, .roHu)]⟩,
  ⟨0xd00010, [], fun _ => [(BRL_ELAPSED, .roHu)]⟩,
  ⟨0xd00018, [], fun _ => [(BRL_CIVIL, .roHu)]⟩,
  ⟨0xd00040, [(8, 5)], fun i => [(BRL_EVENTS (i 0), .roHu)]⟩]

/-- The registers of the MGT block. -/
def regsMgt : List RegDef := [
  ⟨0xc00000, [], fun _ => [(MGT_IMAGE_RESULT_A_RESULT, .roHu),
    (MGT_IMAGE_RESULT_B_RESULT, .roHu),
    (MGT_IMAGE_RESULT_DELTA_RESULT, .roHu),
    (MGT_IMAGE_RESULT_A_TRIED, .roHu),
    (MGT_IMAGE_RESULT_B_TRIED, .roHu),
    (MGT_IMAGE_RESULT_RUNNING_SLOT, .roHu),
    (MGT_IMAGE_RESULT_IMAGE_FAIL_STK, .w1cHu),
    (MGT_IMAGE_RESULT_DELTA_FAIL_STK, .w1cHu),
    (RSVD (0xc00000) 29 35, .ro)]⟩,
  ⟨0xc00008, [], fun _ => [(MGT_IMAGE_SKIP_CNT, .cnt)]⟩,
  ⟨0xc00010, [], fun _ => [(MGT_CHARGE_HOLDER, .roHu),
    (MGT_CHARGE_EPOCH, .roHu),
    (MGT_CHARGE_W_HEALTHY, .roHu),
    (MGT_CHARGE_E_HEALTHY, .roHu),
    (MGT_CHARGE_DISAGREE_STK, .w1cHu),
    (RSVD (0xc00010) 37 27, .ro)]⟩,
  ⟨0xc00018, [], fun _ => [(MGT_FW_RESTART, .w1sHu),
    (MGT_FW_FAILOVER, .w1sHu),
    (MGT_FW_MARGIN_PERIOD_D, .rws),
    (RSVD (0xc00018) 10 54, .ro)]⟩,
  ⟨0xc00020, [], fun _ => [(MGT_ALERT_EN_SEV_EN, .rws),
    (RSVD (0xc00020) 4 60, .ro)]⟩,
  ⟨0xc00028, [], fun _ => [(MGT_EVENT_STATUS_QUEUED, .roHu),
    (MGT_EVENT_STATUS_OVERFLOW_STK, .w1cHu),
    (RSVD (0xc00028) 14 18, .ro),
    (MGT_EVENT_STATUS_NEXT_SEQ_LO, .roHu)]⟩,
  ⟨0xc00040, [(8, 6)], fun i => [(MGT_EVENT_CNT (i 0), .cnt)]⟩,
  ⟨0xc00030, [], fun _ => [(MGT_RETAIN_OK, .roHu)]⟩,
  ⟨0xc00038, [], fun _ => [(MGT_RETAIN_FAIL, .roHu)]⟩]

/-- The registers of the CTU block. -/
def regsCtu : List RegDef := [
  ⟨0x200000, [], fun _ => [(CTU_STATUS_TLB_USED, .roHu),
    (CTU_STATUS_WALKERS_BUSY, .roHu),
    (CTU_STATUS_XSTORE_USED, .roHu),
    (CTU_STATUS_XSTORE_FULL_STK, .w1cHu),
    (RSVD (0x200000) 48 16, .ro)]⟩,
  ⟨0x200040, [(8, 5)], fun i => [(CTU_EVENT_CNT (i 0), .cnt)]⟩,
  ⟨0x280000, [(8, 65536)], fun i => [(CTU_ASID_VALID (i 0), .roHu),
    (RSVD (0x280000 + 8 * i 0) 1 11, .ro),
    (CTU_ASID_ROOT (i 0), .roHu),
    (RSVD (0x280000 + 8 * i 0) 56 8, .ro)]⟩]

/-- The registers of the LRC block. -/
def regsLrc : List RegDef := [
  ⟨0xe00000, [], fun _ => [(LRC_STATUS_PRIMARY_OK, .roHu),
    (LRC_STATUS_MIRROR_OK, .roHu),
    (LRC_STATUS_REBUILT_STK, .w1cHu),
    (LRC_STATUS_MIRROR_ERR_STK, .w1cHu),
    (LRC_STATUS_FOLD_STK, .w1cHu),
    (RSVD (0xe00000) 5 27, .ro),
    (LRC_STATUS_SUM_SEQ_LO, .roHu)]⟩,
  ⟨0xe00008, [], fun _ => [(LRC_LOG_NEXT, .roHu)]⟩,
  ⟨0xe00010, [], fun _ => [(LRC_POWERED_S, .roHu)]⟩]

/-- Every register of the device. -/
def regTable : List RegDef :=
  regsCmp ++ regsDir ++ regsFab ++ regsSlc ++ regsEng ++ regsTil ++ regsPrt ++ regsClk ++ regsPwr ++ regsGlb ++ regsRas ++ regsSec ++ regsBrl ++ regsMgt ++ regsCtu ++ regsLrc

end Sys2Proof.Machine
end

