-- ==== Sys2Proof/Machine/Map.lean ====
section
/-! DEFINITION. Sparse tables: lists of (key, value) pairs with strictly rising keys. The one representation of
memory, of the register fields and of every other table the model keys by a number. -/

namespace Sys2Proof.Machine

/-- A sparse table keyed by natural numbers. -/
abbrev KMap (α : Type) := List (Nat × α)

/-- The canonical form: keys strictly rising. -/
abbrev ksorted {α : Type} (m : KMap α) : Prop := m.Pairwise (fun a b => a.1 < b.1)

/-- The value listed at a key. -/
def kget? {α : Type} : KMap α → Nat → Option α
  | [], _ => none
  | (k, v) :: r, n => if n = k then some v else kget? r n

/-- The value listed at a key, or a default. -/
def kgetD {α : Type} (m : KMap α) (n : Nat) (d : α) : α := (kget? m n).getD d

/-- List a value at a key, replacing the one there. -/
def kput {α : Type} : KMap α → Nat → α → KMap α
  | [], n, v => [(n, v)]
  | (k, w) :: r, n, v =>
    if n < k then (n, v) :: (k, w) :: r
    else if n = k then (n, v) :: r
    else (k, w) :: kput r n v

/-- Take a key out of the list. -/
def kdel {α : Type} : KMap α → Nat → KMap α
  | [], _ => []
  | (k, w) :: r, n => if n = k then kdel r n else (k, w) :: kdel r n

/-- Write a value over a table whose unlisted keys read as `d`: a value equal to `d` is taken out of the list. -/
def kset {α : Type} [DecidableEq α] (m : KMap α) (n : Nat) (v d : α) : KMap α :=
  if v = d then kdel m n else kput m n v

/-- A set of numbers in the same form. -/
abbrev KSet := KMap Unit

/-- Membership. -/
def kmem (m : KSet) (n : Nat) : Bool := (kget? m n).isSome

/-- Add or remove a member. -/
def kin (m : KSet) (n : Nat) (b : Bool) : KSet := if b then kput m n () else kdel m n

/-- Keep the entries whose key passes a test. -/
def kkeep {α : Type} (m : KMap α) (p : Nat → Bool) : KMap α := m.filter (fun e => p e.1)

end Sys2Proof.Machine
end

