-- ==== Sys2Proof/Machine/StateMem.lean ====
section
/-! DEFINITION. The state of compositions, of the pool memory, of harvests and of the coherence protocol
(chapters 2 to 5). Plain data. -/

namespace Sys2Proof.Machine

/-- The state of a present composition (R56); ABSENT is not being in the table. -/
inductive CState where
  | active | changing | failed
  deriving DecidableEq, Repr

/-- One present composition: the fields of its table entry (R38), its state (R56), and the frames it was allotted
(R65, R67, R103): near frames by number, far frames by number over all expanders (`none`: left unallotted, R40). -/
structure Comp where
  cmpId : Nat
  slot : Nat
  keySlot : Nat
  software : Bool
  hostCache : Bool
  harvestEn : Bool
  farEn : Bool
  peerEn : Bool
  portMask : Nat
  nearBytes : Nat
  farBytes : Nat
  spanBytes : Nat
  members : List Nat
  hostAgents : Nat
  heartbeatMs : Nat
  sluiceFirst : Nat
  sluiceCount : Nat
  bwClass : Nat
  engineMask : Nat
  hostRate : Nat
  harvestReserve : Nat
  meterBinding : Nat
  tenantTag : Nat
  state : CState := .active
  near : List Nat := []
  far : List (Option Nat) := []
  resvNear : List Nat := []
  resvFar : List (Option Nat) := []
  deriving DecidableEq, Repr

/-- An expander on a host-role link (R67, R86 to R88). -/
structure Expander where
  port : Nat
  capacity : Nat
  up : Bool
  incarnation : Nat
  /-- Returned and waiting for an ASSERT of retention (R546); its frames were kept by one. -/
  retainWait : Bool := false
  kept : Bool := false
  deriving DecidableEq, Repr

/-- The heat record of one 2 MiB region (R78, R79). -/
structure Heat where
  reads : Nat := 0
  writes : Nat := 0
  remote : Nat := 0
  preR : Nat := 0
  preW : Nat := 0
  preM : Nat := 0
  age : Nat := 0
  sat : Bool := false
  seen : Bool := false
  deriving DecidableEq, Repr

/-- What a completed access to a line sends, and to whom. -/
inductive Reply where
  | none
  /-- Data_F (0), Data_E (1), Data_M (2), CurData (3), WrCmp (4) or AtomData (5) to a tile agent. -/
  | tile (t : Nat) (k : Nat)
  /-- The packet with opcode `opc` to a peer's transaction. -/
  | peer (node : Nat) (tag : Nat) (opc : Nat)
  /-- A CXL.mem completion to the host of agent entry `k` of `port`: 0 Cmp-S, 1 Cmp-E, 2 Cmp with data, 3 Cmp. -/
  | host (port : Nat) (k : Nat) (hpa : Nat) (kind : Nat)
  /-- Line `i` of the bulk transaction `id`. -/
  | bulk (id : Nat) (i : Nat)
  deriving DecidableEq, Repr

/-- What an access does at the home. -/
inductive AccOp where
  | read
  | write (data : Line) (mask : BitVec 64)
  | atomic (ctl : BitVec 64) (opA opB : BitVec 64)
  /-- The mark of R108 set by the home. -/
  | mark
  /-- A write already applied whose page fill was waited for. -/
  | ack
  deriving DecidableEq, Repr

/-- One access at the home of a line (R26). `line` is the pool address divided by 64. -/
structure Acc where
  slot : Nat
  line : Nat
  op : AccOp
  poison : Bool := false
  reply : Reply := .none
  /-- It arrived over a port: counts in REMOTE (R78). -/
  remote : Bool := false
  /-- Data or a mark that the directory itself brings home: it does not wait for a cut (R96). -/
  back : Bool := false
  deriving DecidableEq, Repr

/-- Why a page is held. -/
inductive BusyWhy where
  | fill | copy | exhaust
  deriving DecidableEq, Repr

/-- A lower-tier access outstanding (R86): what waits for it. -/
structure TierAcc where
  id : Nat
  tier : Tier
  slot : Nat
  /-- The descriptor whose piece waits. -/
  desc : Nat
  piece : Nat
  /-- Nanoseconds counted late so far. -/
  late : Nat := 0
  deriving DecidableEq, Repr

/-- Pool memory (chapter 3). Physical addresses: the near store at 0 to 384 GiB − 1; byte `b` of the expander on port
`p` at `farBase + p·2^42 + b`. -/
structure MemS where
  /-- Bytes that are not zero. -/
  bytes : KMap Byte := []
  /-- Pages (physical address / 4096) that are NOT never-written (R80). -/
  written : KSet := []
  /-- Bittern lines (physical address / 64). -/
  bittern : KSet := []
  /-- TRACKED bits of near-store lines (R121). -/
  tracked : KSet := []
  /-- Pages held by a fill, a version copy or a closing by exhaustion (R83, R99, R106). -/
  busy : List (Nat × BusyWhy) := []
  waits : List Acc := []
  expanders : List Expander := []
  /-- The rotation pointer of R67: the port whose turn is next. -/
  farTurn : Nat := 0
  /-- The expanders have enumerated since the last reset, and the far frames of the image were allotted (R40). -/
  enumerated : Bool := false
  allotted : Bool := false
  /-- Advice by slot·2^26 + region (R76); unlisted NORMAL. -/
  advice : KMap Nat := []
  heat : KMap Heat := []
  tier : List TierAcc := []
  deriving DecidableEq, Repr

/-- The lifecycle states of a harvest (R107). -/
inductive HSt where
  | live | held | retiring | closed
  deriving DecidableEq, Repr

/-- The 64 lines of a version block and which of them are bittern. -/
structure Block where
  lines : List Line
  bittern : List Bool
  /-- It lies in a far frame of the reserve (R103). -/
  far : Bool := false
  deriving DecidableEq, Repr

/-- One harvest of a region: its blocks by page of the region, and the pages recorded as never-written at its cut. -/
structure Harvest where
  version : Nat
  st : HSt := .live
  refs : Nat := 0
  /-- Position of its cut among all cuts. -/
  cut : Nat
  blocks : KMap Block := []
  zeros : KSet := []
  deriving DecidableEq, Repr

/-- A harvest command at the home of its region: from the descriptor `desc` of this Slosin, or forwarded by a member
(node and tag of the EngFwd). -/
structure HvCmd where
  desc : Nat := 0
  fwd : Option (Nat × Nat) := none
  opc : Nat
  slot : Nat
  pa : Nat
  length : Nat := 0
  policy : Nat := 0
  version : Nat := 0
  hvid : Nat := 0
  seq : Nat := 0
  deriving DecidableEq, Repr

/-- A versioned region (R91): its harvests oldest first, the PUBLISH waiting for its recalls, and the commands of the
region waiting behind it (R102). -/
structure Region where
  slot : Nat
  base : Nat
  length : Nat
  isProtected : Bool
  lastVersion : Nat := 0
  harvests : List Harvest := []
  publishing : Option HvCmd := none
  queue : List HvCmd := []
  deriving DecidableEq, Repr

/-- An open view (R92): its slot and generation, the harvest it reads, and the CLOSE waiting for its transfers. -/
structure View where
  slot : Nat
  vslot : Nat
  gen : Nat
  base : Nat
  version : Nat
  /-- Its harvest is CLOSED or its region has ended. -/
  closed : Bool := false
  closing : Option HvCmd := none
  deriving DecidableEq, Repr

/-- Harvest state (chapter 4). It lies in PD37 and survives a warm reset (R107). -/
structure HarvS where
  regions : List Region := []
  views : List View := []
  /-- The generation the view slot gives its next view, by slot·4096 + view slot. -/
  viewGen : KMap Nat := []
  cuts : Nat := 0
  /-- Compositions whose reserve use is at or above 75 %. -/
  warned : KSet := []
  /-- Agents whose heartbeat timer runs, by slot·256 + agent (R110). -/
  armed : KSet := []
  /-- Host agents declared dead, by slot·256 + agent: engine accesses to their memory fail (R110). -/
  dead : KSet := []
  deriving DecidableEq, Repr

/-- Holders of copies that a home directory names (R115). -/
inductive Agent where
  | tile (t : Nat)
  | peer (m : Nat)
  | host (h : Nat)
  deriving DecidableEq, Repr

/-- Home-line states (R132). -/
inductive DSt where
  | u | s | sf | em | bSnp | bFin
  deriving DecidableEq, Repr

/-- What a request asks of the home (R136), recalls among them (R134). -/
inductive RKind where
  | rdS | rdX | upg | rdCur | write | atom | wb | evE | evF | keep | drop | discard
  deriving DecidableEq, Repr

/-- A request at the home: who asks, what is sent back, and the write it makes if any. -/
structure HReq where
  kind : RKind
  agent : Option Agent := none
  reply : Reply := .none
  op : AccOp := .read
  poison : Bool := false
  remote : Bool := false
  /-- What the host keeps after a MemWr from the owner (R128). -/
  keep : Meta := .i
  deriving DecidableEq, Repr

/-- Snoops (R125). -/
inductive Snp where
  | s | x | inv | cur
  deriving DecidableEq, Repr

/-- A transaction of a home line (R133): the snoops not yet answered and the state it ends in. -/
structure Txn where
  req : HReq
  tag : Nat
  await : List (Agent × Snp) := []
  /-- The snooped agent forwards the data itself. -/
  forwarded : Bool := false
  /-- Data returned for the reader under SnpCur. -/
  rdata : Option (Line × Bool) := none
  /-- A host's MemWr was taken as its snoop data. -/
  wroteBack : Bool := false
  endSt : DSt
  endSharers : List Agent
  endFw : Option Agent := none
  endOwner : Option Agent := none
  deriving DecidableEq, Repr

/-- One directory line. -/
structure DirLine where
  st : DSt := .u
  sharers : List Agent := []
  fw : Option Agent := none
  owner : Option Agent := none
  txn : Option Txn := none
  queue : List HReq := []
  /-- When its entry was allocated, for the victim choice (R122). -/
  born : Nat := 0
  deriving DecidableEq, Repr

/-- Cache-side states (R123, R124). -/
inductive CSt where
  | i | s | f | e | m | isD | imD | smA | fmA | miA | eiA | fiA | iiA
  deriving DecidableEq, Repr

/-- A line held by a tile agent. Under software coherence `dirty` is its byte mask (R142). -/
structure CLine where
  st : CSt := .i
  data : Line := 0
  dirty : BitVec 64 := 0
  bittern : Bool := false
  /-- Stores waiting for the grant. -/
  pend : List (Line × BitVec 64) := []
  deriving DecidableEq, Repr

/-- A remote-line filter entry (R117): the state toward the home, and the directory of its own tiles. -/
structure FLine where
  up : CSt := .i
  tag : Nat := 0
  dir : DirLine := {}
  /-- The line's data and bittern mark while the entry itself answers for it (assumption 15), and whether it is dirty. -/
  data : Option (Line × Bool) := none
  dirty : Bool := false
  /-- Requests of its tiles waiting for the home: tile and kind. -/
  wait : List (Nat × RKind) := []
  deriving DecidableEq, Repr

/-- A back-invalidation snoop sent to a host and not yet answered. -/
structure HostSnp where
  port : Nat
  entry : Nat
  slot : Nat
  line : Nat
  snp : Snp
  /-- The home's node and tag, when this member relays the snoop (R129). -/
  relay : Option (Nat × Nat) := none
  /-- Data of a MemWr that preceded the response. -/
  wrote : Option (Line × Bool) := none
  /-- The host sent BIConflict. -/
  conflict : Bool := false
  /-- The HOST_INVAL descriptor that sent it (R143). -/
  inval : Option Nat := none
  deriving DecidableEq, Repr

/-- A bulk transaction at its home (R164). -/
structure Bulk where
  id : Nat
  node : Nat
  tag : Nat
  slot : Nat
  line : Nat
  isWrite : Bool
  lines : List (Option (Line × Bool))
  deriving DecidableEq, Repr

/-- What a host asked with a CXL.mem request (R128). -/
inductive HostKind where
  | rdData
  | rd (metaState : Bool) (mv : Meta)
  | inv (mv : Meta)
  | wr (full : Bool) (mv : Meta)
  deriving DecidableEq, Repr

/-- A request held at a port: by its rate limit, by a delta, or for a vault's self-refresh exit. -/
structure HeldReq where
  kind : HostKind
  req : HostReq
  deriving DecidableEq, Repr

/-- One step of a delta (R47). -/
inductive DeltaPhase where
  /-- No delta; bytes arriving; step 3 (holds and drains); step 4 (marking and keys). -/
  | idle | receiving | draining | marking
  deriving DecidableEq, Repr

/-- A delta staged (R45): its serials, its composition entries with PRESENT, and its optional sections. -/
structure Staged where
  serial : Nat
  base : Nat
  entries : List (Comp × Bool)
  engine : Option (List Byte)
  metering : Option (List Byte)
  deriving DecidableEq, Repr

/-- The image and the delta (chapter 2). -/
structure ImgS where
  /-- The two image slots of the flash. -/
  slotA : List Byte := []
  slotB : List Byte := []
  /-- A verified image is in force. -/
  configured : Bool := false
  serial : Nat := 0
  poolId : Nat := 0
  poolSize : Nat := 0
  maxHops : Nat := 0
  masterCapable : Bool := false
  /-- Per port: role, bond, leader, max rate, weight table (R36); expected neighbour node and port (R37). -/
  ports : List (List Nat) := []
  neighbours : List (Nat × Nat) := []
  clockPlan : List Byte := []
  powerPlan : List Byte := []
  engine : List Byte := []
  metering : List Byte := []
  /-- Compositions of the applied image that wait for the join (R542), and the frame tables that survive a reset. -/
  waiting : List Comp := []
  kept : List Comp := []
  /-- The SHA-384 of the running image's bytes, and the key slot that signed it. -/
  keySlot : Nat := 0
  deltaBuf : List Byte := []
  deltaPhase : DeltaPhase := .idle
  staged : Option Staged := none
  deriving DecidableEq, Repr

/-- Coherence state (chapter 5). Lines are keyed by slot·2^50 + line number; tile copies by
(tile·64 + slot)·2^50 + line number. -/
structure CohS where
  dir : KMap DirLine := []
  filter : KMap FLine := []
  copies : KMap CLine := []
  /-- Route of a remote host agent: slot·256 + agent ↦ node (R129). -/
  routes : KMap Nat := []
  hostSnps : List HostSnp := []
  bulks : List Bulk := []
  /-- Lines granted to a host of this port by a remote home with ownership: (slot·256 + agent)·2^50 + line. -/
  owned : KSet := []
  /-- Allocations so far. -/
  births : Nat := 0
  /-- Requests waiting for a victim's recall: the set they need, the line. -/
  victims : List (Nat × Nat × HReq) := []
  deriving DecidableEq, Repr

end Sys2Proof.Machine
end

