-- ==== Sys2Proof/Machine/StateFab.lean ====
section
/-! DEFINITION. The state of the fabric, of sluices and descriptors, and of address translation
(chapters 6 to 8). Plain data. -/

namespace Sys2Proof.Machine

/-- What a transaction tag of this Slosin stands for. -/
inductive TagUse where
  /-- The remote-line filter's request for a line. -/
  | filter (slot line : Nat)
  /-- A snoop transaction of a home line. -/
  | home (slot line : Nat)
  /-- A host request relayed to a member (R129): the port, agent entry, address, and completion kind. -/
  | relay (port entry hpa kind : Nat)
  /-- A tile's RdCur (3), home write (4) or atomic (5) of a line homed elsewhere. -/
  | tileOp (t slot line k : Nat)
  /-- A completion record of a sluice written to a ring on another member (R190). -/
  | record (k : Nat)
  /-- An access of a piece to a peer's memory (R229). -/
  | access (id : Nat)
  /-- A forwarded engine descriptor (R92). -/
  | engine (desc : Nat)
  /-- A snoop of a HOST_INVAL descriptor to an agent that attaches to another member (R143). -/
  | inval (desc slot line : Nat)
  deriving DecidableEq, Repr

/-- A transaction tag in use: the peer it was sent to, and the request as sent, which a replay sends again (R166). -/
structure Tag where
  node : Nat
  use : TagUse
  pkt : Option Pkt := none
  deriving DecidableEq, Repr

/-- One fabric link (chapter 6). -/
structure Link where
  /-- Next SEQ to send, and the flits not yet acknowledged, oldest first: SEQ and the 15 slots. -/
  txSeq : Nat := 0
  replay : List (Nat × List (BitVec 128)) := []
  /-- Last SEQ received in order and intact. -/
  rxSeq : Nat := 0xFFF
  /-- Slots of a packet that continues in the next flit. -/
  rxPart : List (BitVec 128) := []
  /-- The SEQ last NAKed by the far end and how often in a row; NAKs in this millisecond. -/
  nakSeq : Nat := 0
  nakRun : Nat := 0
  nakMs : Nat := 0
  /-- A NAK was sent and not yet answered: later flits are discarded. -/
  nakSent : Bool := false
  /-- Shared slots this sender holds, by virtual channel; reserved slots it holds, by channel·8 + hop class. -/
  shared : List Nat := [0, 0, 0, 0, 0]
  reserved : KMap Nat := []
  /-- Slots freed here whose credits the next flit returns. -/
  giveBack : Nat := 0
  /-- Packets waiting for credits. -/
  queue : List Pkt := []
  down : Bool := false
  /-- Reconciliation waits for the far end's last good SEQ (R170). -/
  reconciling : Bool := false
  /-- Slots sent and credits received since the last AUDIT. -/
  sentSince : Nat := 0
  backSince : Nat := 0
  /-- Turn of the weighted round robin of Forward, Request and Bulk (R159). -/
  turn : Nat := 0
  deriving DecidableEq, Repr

/-- New packets to a node held while its route changes (R163, R170). -/
structure HeldDst where
  node : Nat
  pkts : List Pkt := []
  /-- Fences not yet answered; a reconciliation counts as one. -/
  fences : Nat := 0
  /-- Ports whose reconciliation is waited for. -/
  ports : List Nat := []
  deriving DecidableEq, Repr

/-- Fabric state (chapter 6). -/
structure FabS where
  links : KMap Link := []
  tags : KMap Tag := []
  held : List HeldDst := []
  /-- Packets for this Slosin that passed every check and wait for their command. -/
  inbox : List Pkt := []
  /-- Management packets dropped at a full ring, to be resent (R158). -/
  resend : List Pkt := []
  /-- Missed heartbeats in a row, by node (R172). -/
  missed : KMap Nat := []
  /-- Discovery (R539): the parent port, and the port each reporter's report arrived on. -/
  parent : Option Nat := none
  reporters : KMap Nat := []
  /-- The deepest queue of this window: composition slot·2^50 + line, and its depth (R169). -/
  hotKey : Nat := 0
  hotDepth : Nat := 0
  /-- Lines in a hot-line episode. -/
  hot : KSet := []
  deriving DecidableEq, Repr

/-- Where a run of translated addresses leads (R207, R208). -/
inductive Target where
  | pool (pa : Nat)
  | host (agent : Nat) (hpa : Nat)
  | view (member : Nat) (hvid : Nat) (page : Nat)
  deriving DecidableEq, Repr

/-- One run of the translation store (R213). -/
structure Run where
  field : Nat
  va : Nat
  len : Nat
  target : Target
  wr : Bool
  deriving DecidableEq, Repr

/-- How far a descriptor has come. -/
inductive DPhase where
  /-- Waiting for a page walk, for room in the translation store, queued, running, waiting for a later event of its
  command, its work finished, skipped in its list. -/
  | walking | noRoom | queued | running | waiting | finished | skipped
  deriving DecidableEq, Repr

/-- One address field of a descriptor: where it lies in it, the range and the access it makes (R213). -/
structure AField where
  at_ : Nat
  va : Nat
  len : Nat
  write : Bool
  atomic : Bool := false
  deriving DecidableEq, Repr

/-- One leaf page to move: its virtual address, its size, and the pool addresses it moves between. -/
structure MovePage where
  va : Nat
  size : Nat
  src : Nat
  dst : Nat
  deriving DecidableEq, Repr

/-- A migration or prefetch in progress (R71, R75): the leaf pages still to do, and the batch in hand. -/
structure MigS where
  todo : List MovePage := []
  batch : List MovePage := []
  /-- The invalidation and the recalls of the batch are awaited. -/
  draining : Bool := false
  prefetch : Bool := false
  /-- Physical source pages of the batch, and those written during their copy (R75). -/
  pages : List Nat := []
  dirtied : List Nat := []
  deriving DecidableEq, Repr

/-- A descriptor fetched and not yet completed. -/
structure Desc where
  id : Nat
  sluice : Nat
  slot : Nat
  /-- Its 64 or 128 bytes, byte 0 in bits 7..0. -/
  raw : BitVec 1024
  /-- The list it belongs to, its place in it, and whether it is the last of a list of more than one. -/
  list : Nat
  idx : Nat := 0
  multi : Bool := false
  phase : DPhase := .queued
  status : Nat := 0
  bytes : Nat := 0
  dropped : Nat := 0
  detail : Nat := 0
  stall : Nat := 0
  runs : List Run := []
  /-- Translation has come this far: the field, and the bytes of it. -/
  pos : Nat × Nat := (0, 0)
  stale : Bool := false
  started : Bool := false
  /-- Its engine command has done its work. -/
  worked : Bool := false
  /-- It consumed bittern itself (R112). -/
  consumed : Bool := false
  replays : Nat := 0
  clamped : Bool := false
  /-- The blocks it read once after translation: a parameter block (R311), a recipe block (R236). -/
  recipe : List (BitVec 3072) := []
  mig : Option MigS := none
  /-- DEADLINE_US has passed (R346). -/
  late : Bool := false
  /-- It passed its checks with nothing to hold it back: it starts whatever a later member of its list does (R188). -/
  early : Bool := false
  deriving DecidableEq, Repr

/-- What a sluice holds beside its registers. -/
structure Sluice where
  /-- The accept set latched at the enable (R200). -/
  accept : Nat := 0
  /-- Records written since the last interrupt, and whether an event is pending (R197). -/
  unsignalled : Nat := 0
  timer : Bool := false
  irqPending : Bool := false
  aged : Bool := false
  /-- A fetch of this many slots is under way. -/
  fetching : Option Nat := none
  /-- Slots of a list whose end has not been fetched, oldest first. -/
  part : List (BitVec 512) := []
  deriving DecidableEq, Repr

/-- Sluices and descriptors (chapter 7). -/
structure SlcS where
  sluices : KMap Sluice := []
  descs : List Desc := []
  nextDesc : Nat := 0
  nextList : Nat := 0
  /-- Round robin: the sluice served last and how much of its weight is left. -/
  rrLast : Nat := 0
  rrLeft : Nat := 0
  deriving DecidableEq, Repr

/-- A leaf translation of the TLB (R211): VA and size of the page, and what it maps. -/
structure TlbEnt where
  asid : Nat
  va : Nat
  size : Nat
  target : Target
  wr : Bool
  deriving DecidableEq, Repr

/-- A non-leaf entry of the walk cache: the level of the table it names and the VA prefix it covers. -/
structure WcEnt where
  asid : Nat
  level : Nat
  prefix_ : Nat
  table : Nat
  deriving DecidableEq, Repr

/-- An invalidation in progress (R217 to R220). -/
structure Inv where
  asid : Nat
  abort : Bool
  /-- CMP_ASID_CMD of this slot waits for it, and whether it is a DESTROY. -/
  cmd : Option Nat := none
  destroy : Bool := false
  /-- Accesses issued under an old translation that it waits for. -/
  waitFor : List Nat := []
  deriving DecidableEq, Repr

/-- Address translation (chapter 8). -/
structure XlS where
  tlb : List TlbEnt := []
  wcache : List WcEnt := []
  /-- Walks in progress: ASID and virtual page number (R211). -/
  walks : List (Nat × Nat) := []
  invs : List Inv := []
  deriving DecidableEq, Repr

end Sys2Proof.Machine
end

