-- ==== Sys2Proof/Machine/StateDev.lean ====
section
/-! DEFINITION. The state of the outputs, the management island and the other units (chapters 9 to 23). Plain data. -/

namespace Sys2Proof.Machine

/-- An event record (R522). -/
structure EventRec where
  seq : Nat
  code : Nat
  severity : Nat
  half : Nat
  time : Nat
  cmpId : Nat
  unit : Nat
  data : Nat
  deriving DecidableEq, Repr

/-- What leaves the block, in order. -/
inductive Out where
  /-- A flit on a fabric port. -/
  | flit (port : Nat) (raw : BitVec 2048)
  /-- A snoop or grant to a tile agent of this Slosin: the packet opcode of its name, the target of a snoop. -/
  | toTile (t : Nat) (opc slot line : Nat) (target : Tgt) (data : Line) (bittern : Bool)
  /-- A request or response of a tile agent to the directory of this Slosin. -/
  | toHome (agent : CAgent) (opc slot line : Nat) (data : Line) (dirty bittern : Bool)
  /-- A CXL.mem completion: kind 0 Cmp-S, 1 Cmp-E, 2 Cmp with data, 3 Cmp; poison; DevLoad (R404). -/
  | hostCpl (port entry hpa kind : Nat) (data : Line) (poison : Bool) (devLoad : Nat)
  /-- A back-invalidation snoop, and the answer to BIConflict. -/
  | biSnp (port entry hpa : Nat) (snp : Snp)
  | biConflictAck (port entry hpa : Nat)
  /-- The answer to a configuration request: retry status or completed (R543). -/
  | config (port : Nat) (retry : Bool)
  /-- CXL viral on a port (R57). -/
  | viral (port : Nat)
  /-- An MSI-X message (R197). -/
  | msix (port vector : Nat)
  /-- Bytes written to host memory over CXL.io through a port (R175). -/
  | hostWrite (port hpa : Nat) (data : List Byte)
  /-- Bytes written to host-tier memory over CXL.cache (R69). -/
  | tierWrite (agent hpa : Nat) (data : List Byte) (poison : Bool)
  /-- The value of a register read. -/
  | readData (value : BitVec 64)
  /-- The answer to a management request: its completion code and bytes. -/
  | answer (tag code : Nat) (data : List Byte)
  /-- An event pushed to an EID (R524). -/
  | push (eid : Nat) (e : EventRec)
  /-- A sealed report or other record handed out by name. -/
  | record (name : String) (data : List Nat)
  deriving DecidableEq, Repr

/-- A margin sweep (R531): tiles still to do, tiles in the current group with their next step k, and tiles done. -/
structure Sweep where
  todo : List Nat := []
  now : List (Nat × Nat) := []
  deriving DecidableEq, Repr

/-- A seal kept in PD38 (R544). -/
structure Seal where
  keySlot : Nat
  incarnation : Nat
  expanders : List (Nat × Nat)
  nearBytes : Nat
  farBytes : Nat
  digest : List Byte
  deriving DecidableEq, Repr

/-- A SEAL whose hash runs: its tag, and whether a write has landed in the composition (R544). -/
structure Sealing where
  cmpId : Nat
  tag : Nat
  dirty : Bool := false
  deriving DecidableEq, Repr

/-- The best candidate for master that is known (R537). -/
structure Best where
  strap : Nat
  node : Nat
  deriving DecidableEq, Repr

/-- Pool formation (chapter 23). -/
structure Election where
  best : Option Best := none
  /-- The highest POOL_EPOCH heard. -/
  heard : Nat := 0
  /-- A PROBE was taken (R539). -/
  probed : Bool := false
  /-- Reports held by the master: reporter·2 + half: candidate bit and STRAP_ID, TARGET_UID, ports. -/
  reports : KMap (Nat × Nat × List Nat) := []
  /-- Kept by a Slosin that two NODE_IDs of its own were seen. -/
  dupNode : Bool := false
  deriving DecidableEq, Repr

/-- Management (chapter 22). -/
structure MgtS where
  /-- The event queue, oldest first, and the next EVT_SEQ (R524). -/
  events : List EventRec := []
  evtSeq : Nat := 0
  /-- Subscribed EIDs by subscription slot. -/
  subs : KMap Nat := []
  /-- The active half's firmware runs and answers (R517). -/
  fwUp : Bool := false
  /-- Non-maskable events latched (R420), and other events latched until firmware runs (R447, R448): code and unit. -/
  nmis : Nat := 0
  latched : List (Nat × Nat) := []
  /-- The half that believes it is active after losing charge (R512): 1 W, 2 E. -/
  believes : Nat := 0
  /-- Management resumes at the next TAKEOVER: 1 after a takeover, 2 after a warm restart (R517); 0 it runs or is off. -/
  resuming : Nat := 0
  /-- Journal entries appended since the last committed copy, the JSEQ of the last entry and of the copy, and SEQ of the copy. -/
  journalled : Nat := 0
  jseq : Nat := 0
  copyJseq : Nat := 0
  copySeq : Nat := 0
  /-- Firmware components written by PLDM: Onyx, Beryl. -/
  onyxFw : List Byte := []
  /-- Digest of the Onyx firmware that runs, measured at its start (R471, R473); empty for the firmware shipped. -/
  onyxRun : List Byte := []
  berylFw : List Byte := []
  /-- Field keys of _STK fields that read 1 at the last sample (R522). -/
  stuck : KSet := []
  /-- A margin sweep (R531). -/
  sweep : Option Sweep := none
  /-- Retention (R544, R545): seals by CMP_ID, seals in progress, assertions by CMP_ID, and slots whose fresh hash runs. -/
  seals : KMap Seal := []
  sealing : List Sealing := []
  asserts : KMap (Nat × List Byte) := []
  hashing : KSet := []
  /-- Power-on self-test was passed; a fatal internal error stopped the data path. -/
  postOk : Bool := false
  stopped : Bool := false
  election : Election := {}
  deriving DecidableEq, Repr

/-- An HDM decoder that its host committed (R557). -/
structure Hdm where
  base : Nat
  size : Nat
  deriving DecidableEq, Repr

/-- Ports (chapter 16). Agent entries are keyed port·16 + entry. -/
structure PrtS where
  hdm : KMap Hdm := []
  /-- Bytes missing from an agent's full token bucket of 64 KiB (R402). -/
  drained : KMap Nat := []
  /-- Requests held by their token bucket, by port; held by a delta; waiting for self-refresh exit. -/
  rateHeld : KMap (List HeldReq) := []
  deltaHeld : List HeldReq := []
  srWait : List HeldReq := []
  /-- Fabric ports whose lost lane is being rebuilt (R398). -/
  rebuilding : KSet := []
  /-- Fabric ports retraining to x4, and CXL links in recovery with the width they will have. -/
  retraining : KSet := []
  recovering : KMap Nat := []
  /-- Lanes lost since the port trained, by port·64 + lane. -/
  lost : KSet := []
  /-- Ports whose training has passed steps 1 to 4 and whose link is about to come up: bad lanes, and x4. -/
  ready : KMap (List Nat) := []
  /-- PERST_N: asserted by the host on a device-role port. -/
  perst : KSet := []
  /-- Failed attempts wait for their retry: training (1), handshake (2) or peer authentication (3). -/
  retry : KMap Nat := []
  deriving DecidableEq, Repr

/-- An armed window part of a collective at its home (R287): its window, the elements homed here, its home pan, its
epoch, what has been merged (by member·256 + element of the window), and the sums: exact accumulators, or binary32 bits
in FAST mode with a bittern bit. -/
structure RedPart where
  window : Nat
  idx : List Nat
  pan : Nat
  epoch : Nat := 0
  replays : Nat := 0
  got : KSet := []
  accs : List Accum := []
  fast : List (Nat × Bool) := []
  deriving DecidableEq, Repr

/-- A collective on one participant (R286 to R292). -/
structure Coll where
  slot : Nat
  collId : Nat
  /-- The descriptor that runs it here; none while only JOINs have arrived. -/
  desc : Option Nat := none
  sig : Nat := 0
  joins : List (Nat × Nat) := []
  formed : Bool := false
  /-- The next window to consider for arming. -/
  next : Nat := 0
  parts : List RedPart := []
  /-- Arms waiting for this participant: home member, window, epoch (R288). -/
  arms : List (Nat × Nat × Nat) := []
  /-- Windows answered, by home·2^32 + window, and elements of them; the same for the COPY of ALLREDUCE. -/
  sent : KSet := []
  sentN : Nat := 0
  doneN : Nat := 0
  copied : KSet := []
  copiedN : Nat := 0
  flags : Nat := 0
  replays : Nat := 0
  /-- An ABORT came before the descriptor. -/
  aborted : Option (Nat × Nat) := none
  deriving DecidableEq, Repr

/-- The engines' own state (chapters 11 to 15): collectives by slot·65536 + COLL_ID. -/
structure EngsS where
  colls : KMap Coll := []
  deriving DecidableEq, Repr

/-- Clocks (chapter 17). -/
structure ClkS where
  /-- Windows passed in a row, and failed since last in service: XREF_A, XREF_B. -/
  aRun : Nat := 0
  bRun : Nat := 0
  aFailed : Bool := false
  bFailed : Bool := false
  /-- LFREF windows passed in a row. -/
  lfRun : Nat := 0
  /-- The XREF that the main-path PLLs are locking to: 0 A, 1 B. -/
  lockTo : Option Nat := none
  /-- The clock of PD38 (R468): 0 AORC, 1 IRO ÷ 500, 2 LFREF. -/
  pd38 : Nat := 0
  deriving DecidableEq, Repr

/-- Rails and power (chapters 17 and 18). -/
structure PwrS where
  /-- The rail sequencer: 0 stopped, 2 to 6 the step in hand, 7 done; the rails on (bit r) and good; failures so far. -/
  seq : Nat := 0
  railsOn : Nat := 0
  railsGood : Nat := 0
  seqFails : Nat := 0
  /-- PWRGD_AON is high. -/
  aon : Bool := true
  /-- Power samples of the current 1 ms interval: their sum in mW, their count, and whether one exceeded SUSTAINED_W. -/
  sum : Nat := 0
  count : Nat := 0
  exceeded : Bool := false
  last : Nat := 0
  /-- Burst bucket in tenths of a µs, spike bucket in µs, and µs at or below BURST_W (R429). -/
  burst : Nat := 20000000
  spike : Nat := 5000
  calm : Nat := 0
  /-- Steps of pan issue throttled, in sixteenths (R430), and µs to the next step. -/
  throttle : Nat := 0
  wait : Nat := 0
  /-- Episodes: above SUSTAINED_W, above 1,500 W. -/
  inBurst : Bool := false
  inSpike : Bool := false
  /-- The last PMBus reading that calibrated the samples, in mW (R427). -/
  calib : Nat := 0
  /-- A DRAM layer is above 85 °C: refresh runs at twice its rate (R425). -/
  refresh2 : Bool := false
  /-- Tiles that a PWR_WAKE hold or work keeps from gating while they wake. -/
  wanted : KSet := []
  deriving DecidableEq, Repr

/-- One piece of a descriptor (R216, R228). -/
structure Piece where
  id : Nat
  desc : Nat
  /-- The logical pan whose vault holds its anchor data, and the pan whose context it has or waits for. -/
  pan : Nat
  on : Nat
  adopted : Bool := false
  /-- It waits in the dispatch queue; it is parked on its accesses. -/
  waiting : Bool := false
  parked : Bool := false
  /-- Its lower-tier accesses still to issue (R229). -/
  accs : List Tier := []
  /-- Pool lines its uncommitted in-place blocks may write. -/
  lines : List Nat := []
  /-- It waited for its tile to wake (R424). -/
  woke : Bool := false
  /-- Restored and waiting for its replay. -/
  struck : Bool := false
  deriving DecidableEq, Repr

/-- Pans (chapters 9 and 19). -/
structure PanS where
  pieces : List Piece := []
  next : Nat := 0
  /-- Unexpired strikes by logical pan. -/
  strikes : KMap Nat := []
  /-- Voltage steps by physical pan (tile·130 + position), clock drop by tile (R459). -/
  vstep : KMap Nat := []
  drop : KMap Nat := []
  /-- Logical pans in substitution: the spare position being checked. -/
  subst : KMap Nat := []
  /-- Failed physical positions (tile·130 + position). -/
  failed : KSet := []
  /-- The partner pan that serves a permanently adopted vault, by logical pan. -/
  server : KMap Nat := []
  /-- Detected transient errors of a unit: descriptor·2^32 + unit. -/
  errors : KMap Nat := []
  /-- Units restored and waiting for their replay. -/
  struck : KSet := []
  /-- Correctable errors of this hour by layer; distinct vaults with uncorrectable errors, by layer·4096 + vault; the layer
  being spared; whether its copy was started by management. -/
  layerCe : KMap Nat := []
  layerUe : KSet := []
  sparing : Option Nat := none
  deriving DecidableEq, Repr

/-- A composition key slot (R483): the CMP_ID it was generated for, the number of the key among all keys made, and whether
it is held unused after a cold reset. -/
structure KeySlot where
  cmpId : Nat
  key : Nat
  held : Bool := false
  deriving DecidableEq, Repr

/-- Security (chapter 20). -/
structure SecS where
  keys : KMap KeySlot := []
  made : Nat := 0
  /-- Keys generated for each CMP_ID since its composition was created (KEY_GEN, R473). -/
  gens : KMap Nat := []
  mdk : Bool := true
  /-- Image keys by slot: ECDSA and ML-DSA-87 public keys; states are in SEC_STATUS.IMGKEY. OTP. -/
  imgKeys : KMap (List Byte × List Byte) := []
  /-- OTP: two bits a slot as IMGKEY, and REQUIRE_PQ. -/
  otpState : Nat := 0
  otpPq : Bool := false
  /-- Nonces that a command has used. -/
  nonces : List (List Byte) := []
  /-- The image key slot that signed the running configuration, and the chain of measurement 4. -/
  chain : List Byte := []
  /-- SPDM sessions established. -/
  sessions : Nat := 0
  /-- Which key slots both copies of a slot were uncorrectable. -/
  tap : Bool := false
  deriving DecidableEq, Repr

/-- Beryl's counters of a composition (R494): ACTIVE_MS, FAILED_MS, NEAR, FAR, RESERVE, ENGINE_CTX_US[0–5], HOST_LINES. -/
structure Meter where
  cmpId : Nat
  instance_ : Nat
  counts : List Nat
  /-- ELAPSED_MS of its previous report, and milliseconds since its binding came into force or its last periodic report. -/
  lastCut : Nat := 0
  since : Nat := 0
  gap : Bool := false
  lfLost : Bool := false
  deriving DecidableEq, Repr

/-- A report held: REPORT_SEQ, kind, bytes. -/
structure Report where
  seq : Nat
  kind : Nat
  bytes : List Byte
  deriving DecidableEq, Repr

/-- Beryl's last checkpoint (R500). -/
structure BrlCheck where
  meters : KMap Meter := []
  sealCnt : Nat := 0
  decls : Nat := 0
  reportSeq : Nat := 0
  civil : Option Nat := none
  deriving DecidableEq, Repr

/-- Beryl (chapter 21). -/
structure BrlS where
  /-- VDD_BRL is up. -/
  on : Bool := true
  /-- By composition slot. -/
  meters : KMap Meter := []
  instances : KMap Nat := []
  cfg : List Byte := []
  reportSeq : Nat := 0
  held : List Report := []
  finals : List Report := []
  pushed : List Report := []
  subs : KMap Nat := []
  /-- The journal, oldest first, and the next JSEQ. -/
  journal : List (List Byte) := []
  jseq : Nat := 0
  check : BrlCheck := {}
  /-- A declaration accepted and not yet in effect (R502). -/
  declared : Option Nat := none
  /-- The last civil time, kept when the time is no longer valid. -/
  lastCivil : Nat := 0
  fwDigest : List Byte := []
  /-- The core restarts; requests deferred meanwhile: the composition slot asked for. -/
  restarting : Bool := false
  deferred : List Nat := []
  deriving DecidableEq, Repr

/-- The summary of the lifetime record (R528). -/
structure Summary where
  seq : Nat := 0
  poweredS : Nat := 0
  burstUsed : Nat := 0
  burstGranted : Nat := 1800000000
  highestSerial : Nat := 0
  coldResets : Nat := 0
  unlocks : Nat := 0
  retiredLayers : Nat := 0
  spareLayer : Nat := 12
  trips : Nat := 0
  folds : Nat := 0
  logNext : Nat := 0
  /-- Per tile: SP0_VAULT, SP1_VAULT, flags, PERM_VAULT; unlisted 0xFF, 0xFF, 0, 0. -/
  spares : KMap (List Nat) := []
  /-- Per physical pan: VSTEP + 4 × FAILED. -/
  pans : KMap Nat := []
  drop : KMap Nat := []
  /-- TILE_MARGIN_MV; unlisted 0xFF. -/
  margin : KMap Nat := []
  logicBins : KMap Nat := []
  dramBins : KMap Nat := []
  maxLogic : Nat := 0
  maxDram : Nat := 0
  kinds : KMap Nat := []
  /-- Vaults adopted permanently, per tile. -/
  perm : KMap (List Nat) := []
  deriving DecidableEq, Repr

/-- A log entry of the lifetime record (R530). -/
structure LogEnt where
  kind : Nat
  unit : Nat
  coldResets : Nat
  poweredS : Nat
  data : Nat
  deriving DecidableEq, Repr

/-- The lifetime record (R526 to R530): what is in force, and the summary slots of the primary copy and the mirror. -/
structure LrS where
  cur : Summary := {}
  primary : KMap Summary := []
  mirror : KMap Summary := []
  /-- Log entries in the primary copy, oldest first, and how many of all have reached the mirror. -/
  log : List LogEnt := []
  mirrored : Nat := 0
  /-- BURST_USED written ahead of use, in ms (R433). -/
  ahead : Nat := 0
  deriving DecidableEq, Repr

end Sys2Proof.Machine
end

