-- ==== Sys2Proof/Machine/State.lean ====
section
/-! DEFINITION. The state of the block, the reasons a step can stop, and the state after reset. -/

namespace Sys2Proof.Machine

/-- The faults. -/
inductive Fault where
  /-- Raised by no command of this block: the spec gives every command an effect. Kept so that the type is inhabited. -/
  | unreachable
  deriving DecidableEq, Repr

/-- The refusals. -/
inductive Refusal where
  /-- Raised by an arm of exec whose command has no meaning yet. Safe: the machine stops. -/
  | notModelled (mnemonic : String)
  deriving DecidableEq, Repr

/-- The state of the block: plain data. -/
structure State where
  /-- Register fields that differ from their reset values, by the key of the field (Fields.lean). -/
  regs : KMap Nat := []
  mem : MemS := {}
  hv : HarvS := {}
  coh : CohS := {}
  fab : FabS := {}
  slc : SlcS := {}
  xl : XlS := {}
  mgt : MgtS := {}
  prt : PrtS := {}
  img : ImgS := {}
  engs : EngsS := {}
  clk : ClkS := {}
  pwr : PwrS := {}
  pan : PanS := {}
  sec : SecS := {}
  brl : BrlS := {}
  lr : LrS := {}
  /-- Present compositions, in table order. -/
  comps : List Comp := []
  /-- How many free values have been taken. The MODEL's own field (assumption 1). -/
  free : Nat := 0
  /-- What has left the block. -/
  out : List Out := []
  /-- The commands waiting, first in, first out. -/
  pending : List Instr := []
  deriving DecidableEq, Repr

/-- The machine right after cold reset: every register field at its reset value, memory never-written, every table
and queue empty (assumption 2). -/
def State.reset : State := {}

end Sys2Proof.Machine
end

