-- ==== Sys2Proof/Machine/Ops.lean ====
section
/-! DEFINITION. The named operations every family shares: register fields, free values, outputs, events, the
composition table, pool addresses and physical addresses. -/

namespace Sys2Proof.Machine

/-- Answer a next state. -/
abbrev ok (s : State) : Host.Outcome State Fault Refusal := .next s

/-! ### Register fields -/

/-- The value of a register field. -/
def fget (f : Fld) (s : State) : Nat := kgetD s.regs f.key f.reset

/-- The field is a 1. -/
def fbit (f : Fld) (s : State) : Bool := fget f s == 1

/-- Load a register field. -/
def fset (f : Fld) (v : Nat) (s : State) : State :=
  { s with regs := kset s.regs f.key (v % 2 ^ f.width) f.reset }

/-- Load a one-bit field. -/
def fsetb (f : Fld) (b : Bool) (s : State) : State := fset f (b2n b) s

/-- Add to a CNT field, saturating at all ones (R13). -/
def fadd (f : Fld) (n : Nat) (s : State) : State :=
  fset f (min (fget f s + n) (2 ^ f.width - 1)) s

/-- Count one event. -/
def finc (f : Fld) (s : State) : State := fadd f 1 s

/-- Raise a field that counts occupancy, or lower it, without wrapping below zero. -/
def fup (f : Fld) (n : Nat) (s : State) : State := fset f (fget f s + n) s

/-- See `fup`. -/
def fdown (f : Fld) (n : Nat) (s : State) : State := fset f (fget f s - n) s

/-! ### Free values, outputs, lists -/

/-- Take a value the spec leaves open (assumption 1). -/
def takeFree (w : Nat) (s : State) : BitVec w × State :=
  (Config.freeValue w s.free, { s with free := s.free + 1 })

/-- Send something out of the block. -/
def emit (o : Out) (s : State) : State := { s with out := s.out ++ [o] }

/-- Apply an operation for every member of a list, in order. -/
def each {α : Type} (l : List α) (f : α → State → State) (s : State) : State :=
  l.foldl (fun t a => f a t) s

/-- Apply an operation when a condition holds. -/
def onlyIf (b : Bool) (f : State → State) (s : State) : State := if b then f s else s

/-! ### Events (R522 to R525) -/

/-- The severity of an event code (R523). -/
def severityOf (code : Nat) : Nat :=
  if [0x0002, 0x0027, 0x0040, 0x0061].contains code then 0
  else if [0x0033, 0x0045].contains code then 3
  else if [0x0001, 0x0010, 0x0021, 0x0024, 0x0025, 0x0030, 0x0031, 0x0043, 0x0044, 0x0046, 0x0051].contains code then 2
  else 1

/-- ALERT_N follows the queue, SEV_EN and IMAGE_FAIL_STK (R525). -/
def updateAlert (s : State) : State :=
  let en := fget MGT_ALERT_EN_SEV_EN s
  let on := s.mgt.events.any (fun e => bitAt en e.severity) || fbit MGT_IMAGE_RESULT_IMAGE_FAIL_STK s
  fsetb GLB_PKG_STATUS_ALERT on s

/-- Take out the first event that satisfies a test. -/
def dropFirst {α : Type} (p : α → Bool) : List α → List α
  | [] => []
  | a :: r => if p a then r else a :: dropFirst p r

/-- Push an event to every subscribed EID (R524). -/
def pushEvent (e : EventRec) (s : State) : State :=
  each s.mgt.subs (fun x => emit (.push x.2 e)) s

/-- Count an event that found the queue full (R524). -/
def eventDropped (s : State) : State :=
  s |> fset MGT_EVENT_STATUS_OVERFLOW_STK 1 |> finc (MGT_EVENT_CNT 1)

/-- Keep the queue's register fields in step with it. -/
def updateQueued (s : State) : State :=
  s |> fset MGT_EVENT_STATUS_QUEUED s.mgt.events.length
    |> fset MGT_EVENT_STATUS_NEXT_SEQ_LO (s.mgt.evtSeq % 2 ^ 32) |> updateAlert

/-- Append an entry to Onyx's journal (R515). The 2,048th since the last committed copy brings a copy (R514). -/
def journalAppend (s : State) : State :=
  let m := s.mgt
  let full := m.journalled + 1 ≥ 2048
  let n := m.jseq + 1
  { s with mgt := { m with
      jseq := n, journalled := if full then 0 else m.journalled + 1,
      copyJseq := if full then n else m.copyJseq, copySeq := if full then m.copySeq + 1 else m.copySeq } }

/-- Raise an event (R522, R524): its time is a free value, since the always-on time base is not modelled. -/
def event (code cmpId unit data : Nat) (s : State) : State :=
  let (tm, s) := takeFree 64 s
  let half := if fget MGT_CHARGE_HOLDER s == 2 then 1 else 0
  let e : EventRec := ⟨s.mgt.evtSeq, code, severityOf code, half, tm.toNat, cmpId, unit, data⟩
  let s := { s with mgt := { s.mgt with evtSeq := s.mgt.evtSeq + 1 } }
  let s := s |> journalAppend |> finc (MGT_EVENT_CNT 0)
  if s.mgt.events.length < 4096 then
    { s with mgt := { s.mgt with events := s.mgt.events ++ [e] } } |> pushEvent e |> updateQueued
  else if e.severity ≥ 2 && s.mgt.events.any (fun x => x.severity < 2) then
    { s with mgt := { s.mgt with events := dropFirst (fun x => x.severity < 2) s.mgt.events ++ [e] } }
      |> eventDropped |> pushEvent e |> updateQueued
  else s |> eventDropped |> updateQueued

/-- Raise an event whose DATA the spec does not state: a free value. -/
def eventU (code cmpId unit : Nat) (s : State) : State :=
  let (d, s) := takeFree 64 s
  event code cmpId unit d.toNat s

/-- Raise an event whose rules give its DATA and no UNIT. -/
def eventD (code cmpId data : Nat) (s : State) : State :=
  let (u, s) := takeFree 16 s
  event code cmpId u.toNat data s

/-- Raise an event whose rules give neither its UNIT nor its DATA. -/
def eventF (code cmpId : Nat) (s : State) : State :=
  let (u, s) := takeFree 16 s
  eventU code cmpId u.toNat s

/-! ### Compositions -/

/-- The composition present in a slot. -/
def compAt (slot : Nat) (s : State) : Option Comp := s.comps.find? (fun c => c.slot == slot)

/-- The present composition with an ID. -/
def compById (id : Nat) (s : State) : Option Comp := s.comps.find? (fun c => c.cmpId == id)

/-- The ID of the composition in a slot; 0 for none. -/
def cmpIdOf (slot : Nat) (s : State) : Nat := ((compAt slot s).map (·.cmpId)).getD 0

/-- Change the composition of a slot. -/
def modComp (slot : Nat) (f : Comp → Comp) (s : State) : State :=
  { s with comps := s.comps.map (fun c => if c.slot == slot then f c else c) }

/-- The composition that owns a sluice. -/
def compOfSluice (k : Nat) (s : State) : Option Comp :=
  s.comps.find? (fun c => c.sluiceFirst ≤ k && k < c.sluiceFirst + c.sluiceCount)

/-- A write landed in a composition: a SEAL whose hash runs over it is lost (R544). -/
def sealTouched (slot : Nat) (s : State) : State :=
  if s.mgt.sealing.isEmpty then s else
  { s with mgt := { s.mgt with sealing := s.mgt.sealing.map (fun x =>
      if x.cmpId == cmpIdOf slot s then { x with dirty := true } else x) } }

/-- This Slosin's node ID. -/
def myNode (s : State) : Nat := fget FAB_NODE_NODE_ID s

/-- The place of a node in a member list. -/
def memberIndex (c : Comp) (node : Nat) : Option Nat :=
  c.members.findIdx? (· == node)

/-- 2 MiB. -/
def frameBytes : Nat := 2097152

/-- Where the far window starts, and its largest size (R62). -/
def farWindow : Nat := 2 ^ 39

/-- See `farWindow`. -/
def farSpan : Nat := 48 * 2 ^ 40

/-- The share of each member (R60). -/
def share (c : Comp) : Nat := c.spanBytes / c.members.length / frameBytes * frameBytes

/-- The near store has 196,608 frames (R65). -/
def nearFrames : Nat := 196608

/-- Physical base of the far store in the model's memory. -/
def farBase : Nat := 2 ^ 48

/-- Physical address of a far frame: frame `i` of the expander on port `p` is numbered `p·2^21 + i`. -/
def farFrameAddr (n : Nat) : Nat := farBase + n * frameBytes

/-- Where a local offset of a composition lies (R62, R65, R67): a physical address, an unallotted far frame, or nothing. -/
inductive Place where
  | at_ (phys : Nat)
  | unallotted
  | unbacked
  deriving DecidableEq, Repr

/-- Place a local offset. -/
def placeLocal (c : Comp) (l : Nat) : Place :=
  if l < farWindow then
    if l < c.nearBytes then
      match c.near[l / frameBytes]? with
      | some f => .at_ (f * frameBytes + l % frameBytes)
      | none => .unbacked
    else .unbacked
  else if l - farWindow < c.farBytes && l - farWindow < farSpan then
    match c.far[(l - farWindow) / frameBytes]? with
    | some (some f) => .at_ (farFrameAddr f + l % frameBytes)
    | _ => .unallotted
  else .unbacked

/-- The home of a pool address (R60, R61): this member's place of it, another member, or nothing. -/
inductive Home where
  | here (p : Place)
  | member (index node : Nat)
  | nowhere
  deriving DecidableEq, Repr

/-- The member index and local offset of a pool address. -/
def splitPa (c : Comp) (pa : Nat) : Option (Nat × Nat) :=
  let sh := share c
  if sh = 0 then none
  else if pa ≥ c.members.length * sh then none
  else some (pa / sh, pa % sh)

/-- The home of a pool address (R60). -/
def homeOf (c : Comp) (pa : Nat) (s : State) : Home :=
  match splitPa c pa with
  | none => .nowhere
  | some (i, l) =>
    match c.members[i]? with
    | some n => if n = myNode s then .here (placeLocal c l) else .member i n
    | none => .nowhere

/-- The physical address of a pool address homed here. -/
def physOf (c : Comp) (pa : Nat) (s : State) : Option Nat :=
  match homeOf c pa s with
  | .here (.at_ p) => some p
  | _ => none

/-- The expander of a physical far address. -/
def portOfPhys (p : Nat) : Option Nat := if p < farBase then none else some ((p - farBase) / 2 ^ 42)

/-- The expander that holds a physical address is up, or the address is near (R87). -/
def tierUp (p : Nat) (s : State) : Bool :=
  match portOfPhys p with
  | none => true
  | some q => s.mem.expanders.any (fun e => e.port == q && e.up)

/-- The vault of a near physical address (R65). -/
def vaultOf (p : Nat) : Nat := p / 256 % 4096

/-- The tile of a near physical address (R65, R19). -/
def tileOf (p : Nat) : Nat := vaultOf p / 128

/-- Every byte of a pool range is backed here or on another member. -/
def backedAll (c : Comp) (s : State) (pa : Nat) : Nat → Bool
  | 0 => true
  | n + 1 =>
    (match homeOf c (pa + n * frameBytes) s with
     | .here .unbacked => false
     | .nowhere => false
     | _ => true) && backedAll c s pa n

/-- The range `[pa, pa+len)` is backed (R63); the range is tested frame by frame. -/
def rangeBacked (c : Comp) (pa len : Nat) (s : State) : Bool :=
  len > 0 && backedAll c s (pa / frameBytes * frameBytes) ((pa + len - 1) / frameBytes - pa / frameBytes + 1)
    && pa + len ≤ 2 ^ 56

/-! ### Physical memory -/

/-- The byte at a physical address. Unlisted bytes are zero (assumption 4). -/
def byteAt (a : Nat) (s : State) : Byte := kgetD s.mem.bytes a 0

/-- Store a byte. -/
def setByte (a : Nat) (b : Byte) (s : State) : State :=
  { s with mem := { s.mem with bytes := kset s.mem.bytes a b 0 } }

/-- The bytes of a line, byte 0 first. -/
def lineBytes (l : Line) : List Byte := (List.range 64).map (fun i => (l.toNat >>> (8 * i)) % 256) |>.map (BitVec.ofNat 8)

/-- A number from its little-endian bytes (R4). -/
def leNat : List Byte → Nat
  | [] => 0
  | b :: r => b.toNat + 256 * leNat r

/-- The `n` little-endian bytes of a number. -/
def natLe : Nat → Nat → List Byte
  | 0, _ => []
  | n + 1, v => BitVec.ofNat 8 v :: natLe n (v / 256)

/-- `n` bytes from physical address `a`. -/
def bytesAt (a n : Nat) (s : State) : List Byte := (List.range n).map (fun i => byteAt (a + i) s)

/-- Store consecutive bytes. -/
def setBytes : Nat → List Byte → State → State
  | _, [], s => s
  | a, b :: r, s => setBytes (a + 1) r (setByte a b s)

/-- The cells of the line with physical number `pl`. -/
def cellLine (pl : Nat) (s : State) : Line := BitVec.ofNat 512 (leNat (bytesAt (pl * 64) 64 s))

/-- Store the bytes of a line that a mask selects. -/
def setCells (pl : Nat) (d : Line) (mask : BitVec 64) (s : State) : State :=
  (List.range 64).foldl
    (fun t i => if mask.getLsbD i then setByte (pl * 64 + i) (BitVec.ofNat 8 (d.toNat >>> (8 * i))) t else t) s

/-- The page was written since it was assigned (R80). -/
def isWritten (page : Nat) (s : State) : Bool := kmem s.mem.written page

/-- The line is bittern. A never-written page never reads as bittern (R81). -/
def isBittern (pl : Nat) (s : State) : Bool := kmem s.mem.bittern pl && isWritten (pl / 64) s

/-- Set or clear a bittern mark; a new mark counts for its composition (R114). -/
def setBittern (slot pl : Nat) (b : Bool) (s : State) : State :=
  let new := b && !kmem s.mem.bittern pl
  { s with mem := { s.mem with bittern := kin s.mem.bittern pl b } }
    |> onlyIf new (finc (CMP_BITTERN_NEW_CNT slot))

/-- Mark a page never-written: it reads as zeros and its bittern marks are cleared (R82). -/
def markNever (page : Nat) (s : State) : State :=
  { s with mem := { s.mem with
      written := kdel s.mem.written page,
      bytes := kkeep s.mem.bytes (fun a => a / 4096 != page),
      bittern := kkeep s.mem.bittern (fun l => l / 64 != page) } }

/-- Mark every page of a physical range never-written. -/
def markNeverRange (base len : Nat) (s : State) : State :=
  let out (a : Nat) : Bool := a < base || base + len ≤ a
  { s with mem := { s.mem with
      written := kkeep s.mem.written (fun p => out (p * 4096)),
      bytes := kkeep s.mem.bytes out,
      bittern := kkeep s.mem.bittern (fun l => out (l * 64)) } }

end Sys2Proof.Machine
end

