-- ==== Sys2Proof/Machine/Lifetime.lean ====
section
/-! DEFINITION. The lifetime record (R526 to R530): its log, its summary, its bytes. -/

namespace Sys2Proof.Machine

/-- Write the next summary slot of the primary copy (R529); BURST_USED goes ahead of use (R433). -/
def writeSummary (s : State) : State :=
  let c := { s.lr.cur with seq := s.lr.cur.seq + 1 }
  let w := { c with burstUsed := max c.burstUsed s.lr.ahead }
  { s with lr := { s.lr with cur := c, primary := kput s.lr.primary (c.seq % 16) w } } |> fset LRC_STATUS_SUM_SEQ_LO c.seq

/-- Change the record: a new summary is written at each change (R529). -/
def modRecord (f : Summary → Summary) (s : State) : State :=
  { s with lr := { s.lr with cur := f s.lr.cur } } |> writeSummary

/-- Log entries that the primary copy holds. -/
def logSize : Nat := 229248

/-- Append one entry to a log that has room, and count it. -/
def appendLog (kind unit data : Nat) (s : State) : State :=
  let c := s.lr.cur
  let e : LogEnt := ⟨kind, unit, c.coldResets, c.poweredS, data⟩
  let c := { c with logNext := c.logNext + 1, kinds := kput c.kinds kind (kgetD c.kinds kind 0 + 1) }
  { s with lr := { s.lr with log := s.lr.log ++ [e], cur := c } } |> fset LRC_LOG_NEXT c.logNext

/-- Write a log entry (R530): a full log first releases its oldest 4,096 entries and writes FOLD. -/
def logEvent (kind unit data : Nat) (s : State) : State :=
  let s := if s.lr.log.length < logSize then s else
    let first := s.lr.cur.logNext - s.lr.log.length
    { s with lr := { s.lr with log := s.lr.log.drop 4096, cur := { s.lr.cur with folds := s.lr.cur.folds + 1 } } }
      |> fset LRC_STATUS_FOLD_STK 1 |> appendLog 0x0F 0 (first + (first + 4095) * 2 ^ 56)
  s |> appendLog kind unit data |> writeSummary

/-- The 32 bytes of a log entry. -/
def logBytes (e : LogEnt) : List Byte :=
  let b := natLe 1 e.kind ++ [0] ++ natLe 2 e.unit ++ natLe 4 e.coldResets ++ natLe 8 e.poweredS ++ natLe 14 e.data
  b ++ natLe 2 (crc32c b)

/-- A table of `n` entries of `w` bytes. -/
def tableBytes (m : KMap Nat) (n w d : Nat) : List Byte := (List.range n).flatMap (fun i => natLe w (kgetD m i d))

/-- The bytes of a summary slot (R528). -/
def summaryBytes (c : Summary) : List Byte :=
  let a := natLe 8 c.seq ++ natLe 8 c.poweredS ++ natLe 8 c.burstUsed ++ natLe 8 c.burstGranted ++ natLe 8 c.highestSerial
    ++ natLe 4 c.coldResets ++ natLe 4 c.unlocks ++ natLe 2 c.retiredLayers ++ natLe 1 c.spareLayer ++ natLe 1 (min 255 c.trips)
    ++ natLe 4 c.folds ++ natLe 8 c.logNext
  let tiles := (List.range 32).flatMap (fun t => (kgetD c.spares t [0xFF, 0xFF, 0, 0]).flatMap (natLe 1))
  let hist := tableBytes c.logicBins 24 4 0 ++ tableBytes c.dramBins 24 4 0
  let perm := (List.range 32).flatMap (fun t =>
    let l := kgetD c.perm t []
    (List.range 16).flatMap (fun i => natLe 1 (l.getD i 0xFF)))
  let b := a ++ tiles ++ tableBytes c.pans 4160 1 0 ++ tableBytes c.drop 32 1 0 ++ tableBytes c.margin 32 1 0xFF
    ++ natLe 2 Config.avsCore.toNat ++ natLe 2 Config.avsStack.toNat ++ natLe 4 0 ++ hist
    ++ natLe 1 c.maxLogic ++ natLe 1 c.maxDram ++ natLe 6 0 ++ tableBytes c.kinds 64 8 0 ++ perm
  let body := b ++ List.replicate (0xFFFC - b.length) 0
  body ++ natLe 4 (crc32c body)

/-- The entry whose place in the log is `i`. -/
def logAt (i : Nat) (s : State) : Option LogEnt :=
  let next := s.lr.cur.logNext
  let first := next - s.lr.log.length
  let e := first / logSize * logSize + i
  let e := if e < first then e + logSize else e
  if first ≤ e && e < next then s.lr.log[e - first]? else none

/-- The byte of the primary copy at an offset (R527). What was never written reads as zero (assumption 30). -/
def recordByte (off : Nat) (s : State) : Byte :=
  if off < 0x1000 then Config.recordHeader (BitVec.ofNat 12 off)
  else if off < 0x101000 then
    match kget? s.lr.primary ((off - 0x1000) / 65536) with
    | some c => (summaryBytes c).getD ((off - 0x1000) % 65536) 0
    | none => 0
  else match logAt ((off - 0x101000) / 32) s with
    | some e => (logBytes e).getD ((off - 0x101000) % 32) 0
    | none => 0

/-- What the two copies together say at a cold reset (R529): the larger of each count, serial and budget, and every other
field from the copy with the higher SUM_SEQ. -/
def mergeSummaries (a b : Summary) : Summary :=
  let n := if b.seq > a.seq then b else a
  { n with
    seq := max a.seq b.seq, poweredS := max a.poweredS b.poweredS, burstUsed := max a.burstUsed b.burstUsed,
    burstGranted := max a.burstGranted b.burstGranted, highestSerial := max a.highestSerial b.highestSerial,
    coldResets := max a.coldResets b.coldResets, unlocks := max a.unlocks b.unlocks, trips := max a.trips b.trips,
    folds := max a.folds b.folds, logNext := max a.logNext b.logNext,
    kinds := (List.range 64).foldl (fun m k => kset m k (max (kgetD a.kinds k 0) (kgetD b.kinds k 0)) 0) [] }

/-- The slot with the highest SUM_SEQ of a copy. -/
def newestSlot (m : KMap Summary) : Option Summary :=
  m.foldl (fun x e => match x with
    | none => some e.2
    | some y => if e.2.seq > y.seq then some e.2 else x) none

/-- The temperature histogram's bin of a temperature in °C. -/
def tempBin (t : Int) : Nat := min 23 (t.toNat / 5)

/-- SUMMARY_WRITE (R529): `secs` seconds have passed at the given logic and hottest DRAM temperature. -/
def summaryTick (secs : Nat) (logic dram : Int) (s : State) : State :=
  let c := s.lr.cur
  let up (m : KMap Nat) (k : Nat) : KMap Nat := kput m k (min (2 ^ 32 - 1) (kgetD m k 0 + secs))
  let c := { c with poweredS := c.poweredS + secs, logicBins := up c.logicBins (tempBin logic),
                    dramBins := up c.dramBins (tempBin dram), maxLogic := max c.maxLogic logic.toNat,
                    maxDram := max c.maxDram dram.toNat }
  { s with lr := { s.lr with cur := c } } |> fset LRC_POWERED_S c.poweredS |> writeSummary

/-- MIRROR_SYNC (R529): the summary goes to the flash mirror; a failed write is reported and retried. -/
def mirrorSync (done : Bool) (s : State) : State :=
  if done then
    { s with lr := { s.lr with mirror := kput s.lr.mirror (s.lr.cur.seq % 16) s.lr.cur, mirrored := s.lr.cur.logNext } }
  else fset LRC_STATUS_MIRROR_ERR_STK 1 s

/-- SUMMARY_WRITE (R529). -/
def execSummaryWrite (secs : Nat) (logic dram : Int) (s : State) := ok (summaryTick secs logic dram s)
/-- MIRROR_SYNC (R529). -/
def execMirrorSync (done : Bool) (s : State) := ok (mirrorSync done s)

end Sys2Proof.Machine
end

