-- ==== Sys2Proof/Machine/Net.lean ====
section
/-! DEFINITION. Packets, flits, credits, routing and transaction tags (chapter 6): what sending a packet does. -/

namespace Sys2Proof.Machine

/-! ### CRC-64 of a flit (R148), polynomial 0x42F0_E1EB_A9EA_3693, most significant bit first, initial value 0
(assumption 10) -/

/-- One bit step. -/
def crc64Bit (c : Nat) : Nat :=
  if c / 2 ^ 63 % 2 = 1 then (c * 2 % 2 ^ 64) ^^^ 0x42F0E1EBA9EA3693 else c * 2 % 2 ^ 64

/-- One byte step. -/
def crc64Byte (c : Nat) (b : Byte) : Nat := (List.range 8).foldl (fun x _ => crc64Bit x) (c ^^^ (b.toNat <<< 56))

/-- CRC-64 over bytes. -/
def crc64 (bs : List Byte) : Nat := bs.foldl crc64Byte 0

/-! ### Packet and flit layouts (R149, R153) -/

/-- The virtual channel an opcode belongs to (R155). -/
def vcOf (opc : Nat) : Nat :=
  if opc < 0x20 then 0 else if opc < 0x40 then 1 else if opc < 0x60 then 2 else if opc < 0x80 then 3 else 4

/-- The lengths in slots an assigned opcode may have (R155); none for an unassigned one. -/
def legalLens (opc : Nat) : List Nat :=
  if opc ∈ [0x01, 0x02, 0x03, 0x05, 0x06, 0x07, 0x0B] then [2]
  else if opc ∈ [0x04, 0x08, 0x09, 0x0C] then [6]
  else if opc = 0x0A then [3]
  else if opc ∈ [0x0F, 0x2F, 0x4F, 0x6F] then [1]
  else if opc ∈ [0x20, 0x21, 0x22, 0x23] then [2]
  else if opc ∈ [0x40, 0x41, 0x42, 0x47, 0x48, 0x4C] then [5]
  else if opc ∈ [0x43, 0x44, 0x45, 0x46, 0x49, 0x4A, 0x4D] then [1]
  else if opc = 0x4B then [2]
  else if opc = 0x4E then [3]
  else if opc = 0x60 then [6, 10, 14, 18]
  else if opc = 0x61 then [5, 9, 13, 17]
  else if opc = 0x62 then (List.range 17).map (· + 2)
  else if opc ∈ [0x80, 0x85, 0x86, 0x89] then [2]
  else if opc ∈ [0x81, 0x88] then [4]
  else if opc ∈ [0x82, 0x83, 0x84, 0x87] then [1]
  else []

/-- Header slots of an opcode's packets: one where the rest is exactly its data, two otherwise (assumption 11). -/
def hdrSlots (opc len : Nat) : Nat :=
  if len = 1 then 1 else if 0x40 ≤ opc && opc < 0x60 then 1 else if opc = 0x61 then 1 else 2

/-- Words 0 and 1 of a header. -/
def hdrSlot0 (h : Hdr) : BitVec 128 :=
  BitVec.ofNat 128 (h.pktLen.toNat + h.vc.toNat * 2 ^ 5 + h.opc.toNat * 2 ^ 8 + h.dst.toNat * 2 ^ 16
    + h.rsvdA.toNat * 2 ^ 28 + h.src.toNat * 2 ^ 32 + h.rsvdB.toNat * 2 ^ 44 + h.hops.toNat * 2 ^ 48
    + b2n h.bittern * 2 ^ 51 + h.reason.toNat * 2 ^ 52 + h.rsvdC.toNat * 2 ^ 56
    + h.cmpId.toNat * 2 ^ 64 + h.tag.toNat * 2 ^ 80 + h.srcInc.toNat * 2 ^ 96 + h.dstInc.toNat * 2 ^ 112)

/-- Words 2 and 3. -/
def hdrSlot1 (h : Hdr) : BitVec 128 :=
  BitVec.ofNat 128 (h.pa.toNat + h.paRsvd.toNat * 2 ^ 56 + h.oparg.toNat * 2 ^ 64)

/-- Read a header from its slots. -/
def readHdr (a b : BitVec 128) : Hdr :=
  let f (w lo n : Nat) : BitVec n := BitVec.ofNat n (w / 2 ^ lo)
  let x := a.toNat; let y := b.toNat
  { pktLen := f x 0 5, vc := f x 5 3, opc := f x 8 8, dst := f x 16 12, rsvdA := f x 28 4, src := f x 32 12,
    rsvdB := f x 44 4, hops := f x 48 3, bittern := bitAt x 51, reason := f x 52 4, rsvdC := f x 56 8,
    cmpId := f x 64 16, tag := f x 80 16, srcInc := f x 96 16, dstInc := f x 112 16,
    pa := f y 0 56, paRsvd := f y 56 8, oparg := f y 64 64 }

/-- The slots of a packet. -/
def pktSlots (p : Pkt) : List (BitVec 128) :=
  if hdrSlots p.hdr.opc.toNat p.hdr.pktLen.toNat = 1 then hdrSlot0 p.hdr :: p.body
  else hdrSlot0 p.hdr :: hdrSlot1 p.hdr :: p.body

/-- Read a packet from its slots. -/
def readPkt : List (BitVec 128) → Pkt
  | [] => ⟨{}, []⟩
  | a :: r =>
    let h := readHdr a 0
    if hdrSlots h.opc.toNat h.pktLen.toNat = 1 then ⟨h, r⟩
    else match r with
      | [] => ⟨h, []⟩
      | b :: r' => ⟨readHdr a b, r'⟩

/-- A line as four slots. -/
def lineSlots (l : Line) : List (BitVec 128) := (List.range 4).map (fun i => BitVec.ofNat 128 (l.toNat >>> (128 * i)))

/-- A number from 16-byte slots, first slot lowest. -/
def slotsNat : List (BitVec 128) → Nat
  | [] => 0
  | a :: r => a.toNat + 2 ^ 128 * slotsNat r

/-- A line from four slots. -/
def slotsLine (l : List (BitVec 128)) : Line := BitVec.ofNat 512 (slotsNat (l.take 4))

/-- A flit from its header fields and its slots, with its CRC. -/
def mkFlit (seq ack typ sharedRet : Nat) (slots : List (BitVec 128)) : BitVec 2048 :=
  let hdr := seq % 4096 + ack % 4096 * 2 ^ 12 + typ % 16 * 2 ^ 24 + sharedRet % 4096 * 2 ^ 28
  let low := hdr + slotsNat (slots.take 15) * 2 ^ 64
  let crc := crc64 (natLe 248 low)
  BitVec.ofNat 2048 (low + crc * 2 ^ 1984)

/-! ### Links and credits (R156 to R159) -/

/-- The link of a port. -/
def linkOf (p : Nat) (s : State) : Link := kgetD s.fab.links p {}

/-- Change a link. -/
def setLink (p : Nat) (l : Link) (s : State) : State :=
  { s with fab := { s.fab with links := kput s.fab.links p l } }

/-- Reserved slots of a virtual channel, per hop class (R156). -/
def reservedSize (vc : Nat) : Nat := [6, 2, 5, 18, 4].getD vc 0

/-- Take credits for a packet: from the shared pool while it may, else from its reserved pool (R157). -/
def takeCredits (h : Hdr) (l : Link) : Option Link :=
  let n := h.pktLen.toNat; let vc := h.vc.toNat
  let held := l.shared.getD vc 0
  if l.shared.sum + n ≤ 5864 && held + n ≤ 4096 then
    some { l with shared := l.shared.set vc (held + n) }
  else
    let k := vc * 8 + h.hops.toNat
    let r := kgetD l.reserved k 0
    if r + n ≤ reservedSize vc then some { l with reserved := kset l.reserved k (r + n) 0 } else none

/-- The slots of a list in flits of 15. -/
def chunk15 : Nat → List (BitVec 128) → List (List (BitVec 128))
  | 0, _ => []
  | _, [] => []
  | n + 1, l => l.take 15 :: chunk15 n (l.drop 15)

/-- Put the flits of a packet on a port (R149): numbered, kept in the replay buffer, sent. -/
def putFlits (p : Nat) (fs : List (List (BitVec 128))) (s : State) : State :=
  each fs (fun f s =>
    let l := linkOf p s
    let back := min l.giveBack 4095
    let raw := mkFlit l.txSeq l.rxSeq 1 back f
    s |> setLink p { l with txSeq := (l.txSeq + 1) % 4096, replay := l.replay ++ [(l.txSeq, f)], giveBack := l.giveBack - back }
      |> emit (.flit p raw)) s

/-- A fabric port carries packets. -/
def fabricUp (p : Nat) (s : State) : Bool :=
  fget (PRT_STATUS_ROLE p) s == 3 && fbit (PRT_STATUS_LINK_UP p) s && !(linkOf p s).down

/-- Send a packet on a port, or queue it for credits or for room in the replay buffer (R157, R151). -/
def sendOn (p : Nat) (k : Pkt) (s : State) : State :=
  let l := linkOf p s
  let fs := chunk15 2 (pktSlots k)
  match (if fabricUp p s && l.queue.isEmpty && l.replay.length + fs.length ≤ 512 then takeCredits k.hdr l else none) with
  | some l' =>
    s |> setLink p { l' with sentSince := l'.sentSince + k.hdr.pktLen.toNat } |> putFlits p fs
  | none => setLink p { l with queue := l.queue ++ [k] } s

/-- The order in which an output port takes virtual channels (R159): Management, Response, then Forward, Request and
Bulk by turns with weights 1, 2 and 5. -/
def vcOrder (turn : Nat) : List Nat :=
  match turn % 8 with
  | 0 => [4, 2, 1, 0, 3]
  | 1 => [4, 2, 0, 3, 1]
  | 2 => [4, 2, 0, 3, 1]
  | _ => [4, 2, 3, 1, 0]

/-- The packet that goes next from a queue, if its credits are there. -/
def nextOut (l : Link) : Option (Pkt × Link) :=
  (vcOrder l.turn).findSome? (fun vc =>
    match l.queue.find? (fun k => k.hdr.vc.toNat == vc) with
    | none => none
    | some k =>
      match takeCredits k.hdr { l with queue := l.queue.erase k } with
      | some l' => some (k, l')
      | none => none)

/-- Send what credits and replay room now allow. -/
def drainQueue (p : Nat) : Nat → State → State
  | 0, s => s
  | n + 1, s =>
    let l := linkOf p s
    if !fabricUp p s || l.replay.length + 2 > 512 then s else
    match nextOut l with
    | none => s
    | some (k, l') =>
      s |> setLink p { l' with sentSince := l'.sentSince + k.hdr.pktLen.toNat, turn := (l'.turn + 1) % 8 }
        |> putFlits p (chunk15 2 (pktSlots k)) |> drainQueue p n

/-! ### Routing (R161 to R163) -/

/-- The window key of a Bulk packet (R162). -/
def bulkKey (h : Hdr) : Nat :=
  if h.opc.toNat = 0x62 then h.pa.toNat / 256 else h.pa.toNat / 256

/-- The output port of a packet to node `d` (R161, R162). -/
def routePort (h : Hdr) (s : State) : Option Nat :=
  let d := h.dst.toNat
  let ways := match fget (FAB_ROUTE_BULK_WAYS d) s with | 1 => 2 | 2 => 4 | _ => 1
  if fbit (FAB_ROUTE_USE_ALT d) s && fbit (FAB_ROUTE_ALT_VALID d) s then some (fget (FAB_ROUTE_ALTERNATE d) s)
  else if h.vc.toNat = 4 && !fbit (FAB_ROUTE_PRIM_VALID d) s then
    -- before routes are installed (R539)
    match kget? s.fab.reporters d with
    | some p => some p
    | none => if d = fget FAB_FORM_MASTER_NODE s then s.fab.parent else none
  else if fbit (FAB_ROUTE_PRIM_VALID d) s then
    if h.vc.toNat = 3 then
      match bulkKey h % ways with
      | 1 => some (fget (FAB_ROUTE_BULK_PORT1 d) s)
      | 2 => some (fget (FAB_ROUTE_BULK_PORT2 d) s)
      | 3 => some (fget (FAB_ROUTE_BULK_PORT3 d) s)
      | _ => some (fget (FAB_ROUTE_PRIMARY d) s)
    else some (fget (FAB_ROUTE_PRIMARY d) s)
  else none

/-- Hand a packet to the command that takes it at this Slosin. A Management packet that finds the ring of 512 full is
dropped and counted (R158). -/
def toInbox (k : Pkt) (s : State) : State :=
  let mgmt := s.fab.inbox.filter (fun x => x.hdr.vc.toNat == 4)
  if k.hdr.vc.toNat = 4 && mgmt.length ≥ 512 then
    { s with fab := { s.fab with resend := s.fab.resend ++ [k] } } |> finc (FAB_EVENT_CNT 6)
  else { s with fab := { s.fab with inbox := s.fab.inbox ++ [k] } }

/-- An own packet that cannot leave ends its transaction as if a forwarder had answered NO_ROUTE (R161, R172). -/
def ownNoRoute (k : Pkt) (s : State) : State :=
  if k.hdr.src.toNat = myNode s && (k.hdr.vc.toNat = 0 || k.hdr.vc.toNat = 3) then
    toInbox ⟨{ pktLen := 1, vc := 2, opc := 0x4D, dst := k.hdr.src, src := k.hdr.dst, reason := 2, cmpId := k.hdr.cmpId,
               tag := k.hdr.tag, srcInc := k.hdr.dstInc, dstInc := k.hdr.srcInc }, []⟩ s
  else s

/-- Send a packet toward its destination: held while its route changes, out on the port of its entry, or (own or
forwarded) discarded for want of a route (R161, R163, R172). -/
def route (k : Pkt) (s : State) : State :=
  let d := k.hdr.dst.toNat
  if d = myNode s then toInbox k s
  else if s.fab.held.any (fun h => h.node == d) then
    { s with fab := { s.fab with held := s.fab.held.map (fun h => if h.node == d then { h with pkts := h.pkts ++ [k] } else h) } }
  else if fbit (FAB_ROUTE_UNREACHABLE d) s then ownNoRoute k s
  else match routePort k.hdr s with
    | some p => sendOn p k s
    | none => s |> finc (FAB_EVENT_CNT 4) |> ownNoRoute k

/-- The incarnation of a node (FAB_PEER_INC). -/
def peerIncFld (n : Nat) : Fld :=
  match n % 4 with
  | 0 => FAB_PEER_INC_INC0 (n / 4)
  | 1 => FAB_PEER_INC_INC1 (n / 4)
  | 2 => FAB_PEER_INC_INC2 (n / 4)
  | _ => FAB_PEER_INC_INC3 (n / 4)

/-- Build a packet of this Slosin. -/
def mkPkt (opc dst cmpId tag pa oparg : Nat) (body : List (BitVec 128)) (bittern : Bool) (len : Nat) (s : State) : Pkt :=
  { hdr := { pktLen := BitVec.ofNat 5 len, vc := BitVec.ofNat 3 (vcOf opc), opc := BitVec.ofNat 8 opc,
             dst := BitVec.ofNat 12 dst, src := BitVec.ofNat 12 (myNode s), bittern,
             cmpId := BitVec.ofNat 16 cmpId, tag := BitVec.ofNat 16 tag,
             srcInc := BitVec.ofNat 16 (fget FAB_NODE_INCARNATION s),
             dstInc := BitVec.ofNat 16 (fget (peerIncFld dst) s),
             pa := BitVec.ofNat 56 pa, oparg := BitVec.ofNat 64 oparg }, body }

/-- Send a packet of this Slosin; its length is the header's slots and the body's. -/
def send (opc dst cmpId tag pa oparg : Nat) (body : List (BitVec 128)) (bittern : Bool) (s : State) : State :=
  let hs := hdrSlots opc (match legalLens opc with | [n] => n | _ => 2)
  route (mkPkt opc dst cmpId tag pa oparg body bittern (hs + body.length) s) s

/-- Send a Nak (R166): reason 1 HOP_LIMIT, 2 NO_ROUTE, 3 PATH_LOST, 4 UNBACKED, 5 COMPOSITION_FAILED. One that cannot be
delivered is discarded and counted. -/
def sendNak (h : Hdr) (reason : Nat) (s : State) : State :=
  let k := mkPkt 0x4D h.src.toNat h.cmpId.toNat h.tag.toNat 0 0 [] false 1 s
  let k := { k with hdr := { k.hdr with reason := BitVec.ofNat 4 reason } }
  if h.src.toNat ≠ myNode s && (fbit (FAB_ROUTE_UNREACHABLE h.src.toNat) s) then finc (FAB_EVENT_CNT 4) s
  else route k s

/-! ### Transaction tags (R125, R160) -/

/-- The lowest number not listed. -/
def lowestFree {α : Type} : KMap α → Nat → Nat
  | [], n => n
  | (k, _) :: r, n => if k = n then lowestFree r (n + 1) else n

/-- Allocate a tag. -/
def newTag (node : Nat) (u : TagUse) (s : State) : Nat × State :=
  let t := lowestFree s.fab.tags 0
  (t, { s with fab := { s.fab with tags := kput s.fab.tags t { node, use := u } } })

/-- Free a tag. -/
def freeTag (t : Nat) (s : State) : State := { s with fab := { s.fab with tags := kdel s.fab.tags t } }

/-- What a tag stands for, if it is in use for that node. -/
def tagOf (t node : Nat) (s : State) : Option TagUse :=
  match kget? s.fab.tags t with
  | some x => if x.node = node then some x.use else none
  | none => none

/-- Allocate a tag and send a request under it. -/
def sendReq (opc dst cmpId pa oparg : Nat) (body : List (BitVec 128)) (bittern : Bool) (u : TagUse) (s : State) :
    Nat × State :=
  let t := lowestFree s.fab.tags 0
  let hs := hdrSlots opc (match legalLens opc with | [n] => n | _ => 2)
  let k := mkPkt opc dst cmpId t pa oparg body bittern (hs + body.length) s
  (t, route k { s with fab := { s.fab with tags := kput s.fab.tags t { node := dst, use := u, pkt := some k } } })

/-! ### The checks of an arriving packet (R154, R161, R174) -/

/-- A control word of Atom that R165 does not define. -/
def atomBad (c : BitVec 64) : Bool :=
  let x := c.toNat
  let aop := bitsOf x 0 8; let size := bitsOf x 8 2; let off := bitsOf x 16 6
  aop = 0 || aop > 0x0B || size ≥ 2 || bitsOf x 10 6 ≠ 0 || bitsOf x 22 42 ≠ 0
    || (aop = 0x0B && size ≠ 0) || off % (if size = 0 then 4 else 8) ≠ 0

/-- A Hello whose fields R536 does not define. -/
def helloBad (h : Hdr) : Bool :=
  let w := h.pa.toNat; let o := h.oparg.toNat
  let kind := bitsOf w 0 8
  kind = 0 || kind > 4 || bitAt w 31 || bitsOf w 48 8 ≠ 0 || (kind ≠ 2 && o ≠ 0) || o ≥ 16

/-- A PartialAcc whose length, kind or count R289 does not allow. -/
def partialBad (h : Hdr) : Bool :=
  let o := h.oparg.toNat
  let n := bitsOf o 0 6 + 1
  let full := ((List.range n).filter (fun j => bitAt o (8 + j))).length
  bitsOf h.pa.toNat 48 8 ≠ 0 ||
  (if bitAt o 7 then h.pktLen ≠ 2 || bitsOf o 0 6 > 4
   else if bitAt o 6 then h.pktLen.toNat ≠ 2 + (n + 3) / 4
   else n > 16 || n + 2 * full > 16 || h.pktLen.toNat ≠ 2 + n + 2 * full)

/-- The packet is malformed (R154, R289, R536). -/
def malformed (h : Hdr) : Bool :=
  let opc := h.opc.toNat; let len := h.pktLen.toNat
  !(legalLens opc).contains len || h.vc.toNat ≥ 5 || h.vc.toNat ≠ vcOf opc
    || h.rsvdA ≠ 0 || h.rsvdB ≠ 0 || h.rsvdC ≠ 0 || (opc ≠ 0x4D && h.reason ≠ 0)
    || (opc = 0x4D && (h.reason = 0 || h.reason.toNat ≥ 6))
    || (len ≠ 1 && h.paRsvd ≠ 0)
    || (opc = 0x0A && atomBad h.oparg) || (opc = 0x62 && partialBad h) || (opc = 0x80 && helloBad h)

/-- What becomes of an arriving packet. -/
inductive Arrival where
  | deliver | forward | hopLimit | noRoute | malformed | stale
  deriving DecidableEq, Repr

/-- Judge an arriving packet: forwarders look at DST and HOPS only, the destination checks the rest. Hello packets
are exempt from the incarnation check (R174). -/
def judge (h : Hdr) (s : State) : Arrival :=
  if h.dst.toNat ≠ myNode s then
    if h.hops.toNat = 7 then .hopLimit
    else if (routePort h s).isNone then .noRoute
    else .forward
  else if malformed h then .malformed
  else if h.opc.toNat ≠ 0x80 && (h.dstInc.toNat ≠ fget FAB_NODE_INCARNATION s
      || h.srcInc.toNat ≠ fget (peerIncFld h.src.toNat) s) then .stale
  else .deliver

/-- A malformed packet is discarded and counted (R154). -/
def onMalformed (s : State) : State :=
  s |> finc (FAB_EVENT_CNT 5) |> fset FAB_STATUS_MALFORMED_STK 1 |> eventF 0x0024 0

/-- A packet that is not delivered here: forwarded, or discarded as R154, R161 and R174 state. -/
def undelivered (a : Arrival) (k : Pkt) (s : State) : State :=
  match a with
  | .deliver => s
  | .forward => route { k with hdr := { k.hdr with hops := k.hdr.hops + 1 } } s
  | .hopLimit => s |> finc (FAB_EVENT_CNT 4) |> fset FAB_STATUS_HOP_LIMIT_STK 1 |> sendNak k.hdr 1
  | .noRoute => s |> finc (FAB_EVENT_CNT 4) |> sendNak k.hdr 2
  | .malformed => onMalformed s
  | .stale => finc FAB_STALE_DROP_CNT s

/-- A packet reaches its command: taken from the inbox when DATA_FLIT already checked it there, checked now otherwise.
`none` in the first place: it goes no further. -/
def arrive (k : Pkt) (s : State) : Bool × State :=
  if s.fab.inbox.contains k then (true, { s with fab := { s.fab with inbox := s.fab.inbox.erase k } })
  else match judge k.hdr s with
    | .deliver => (true, s)
    | a => (false, undelivered a k s)

/-- Run an operation on a packet that arrives for this Slosin with the opcode of its command. -/
def onArrival (opc : Nat) (k : Pkt) (f : State → State) (s : State) : State :=
  if k.hdr.opc.toNat ≠ opc then s else
  match arrive k s with
  | (true, s) => f s
  | (false, s) => s

/-- As `onArrival`, for a packet known by its header alone: in the inbox it is found by its header. -/
def onHdr (opc : Nat) (h : Hdr) (f : State → State) (s : State) : State :=
  match s.fab.inbox.find? (fun k => k.hdr == h) with
  | some k => onArrival opc k f s
  | none => onArrival opc ⟨h, []⟩ f s

end Sys2Proof.Machine
end

