-- ==== Sys2Proof/Machine/Home.lean ====
section
/-! DEFINITION. One access at the home of a line (R26): never-written pages, version copies and the reserve, bittern,
heat, atomics, and the completion it sends. -/

namespace Sys2Proof.Machine

/-! ### Heat (R78) -/

/-- Key of the region of a local offset. -/
def heatKey (slot l : Nat) : Nat := slot * 2 ^ 26 + l / frameBytes

/-- One counter with its 6-bit prescaler: counter, prescaler, saturated. -/
def heatTick (c p : Nat) : Nat × Nat × Bool :=
  if p + 1 < 64 then (c, p + 1, false)
  else if c ≥ 0xFFFF then (c, 0, true) else (c + 1, 0, false)

/-- Count one line access. -/
def heat (slot l : Nat) (write remote : Bool) (s : State) : State :=
  let k := heatKey slot l
  if fbit (CMP_HEAT_CTL_FREEZE slot) s || kgetD s.mem.advice k 0 == 5 then s else
  let h := kgetD s.mem.heat k {}
  let h := { h with seen := true }
  let h := if write then
      let (c, p, st) := heatTick h.writes h.preW
      { h with writes := c, preW := p, sat := h.sat || st }
    else
      let (c, p, st) := heatTick h.reads h.preR
      { h with reads := c, preR := p, sat := h.sat || st }
  let h := if remote then
      let (c, p, st) := heatTick h.remote h.preM
      { h with remote := c, preM := p, sat := h.sat || st }
    else h
  { s with mem := { s.mem with heat := kset s.mem.heat k h {} } }

/-- Replace the bytes of a line that a mask selects. -/
def overlay (l d : Line) (m : BitVec 64) : Line :=
  let bits := (List.range 64).foldl (fun a i => if m.getLsbD i then a + 255 * 2 ^ (8 * i) else a) 0
  let k : Line := BitVec.ofNat 512 bits
  (l &&& ~~~k) ||| (d &&& k)

/-! ### DevLoad and completions (R404) -/

/-- The agent entry's composition. -/
def entryComp (port k : Nat) (s : State) : Option Comp := compAt (fget (PRT_AGENT_SLOT port k) s) s

/-- Bucket fill of an agent. -/
def bucketFill (port k : Nat) (s : State) : Nat := 65536 - kgetD s.prt.drained (port * 16 + k) 0

/-- The requests held by rate at a port. -/
def heldAt (port : Nat) (s : State) : List HeldReq := kgetD s.prt.rateHeld port []

/-- The agent entry that a request belongs to (R393). -/
def entryOf (port bi : Nat) (s : State) : Option Nat :=
  (List.range 16).find? (fun k => fbit (PRT_AGENT_VALID port k) s
    && (fbit (PRT_AGENT_MATCH_ANY port k) s || fget (PRT_AGENT_BI_ID port k) s == bi))

/-- DevLoad of a response: the higher of the agent's level and the port's. -/
def devLoad (port k : Nat) (s : State) : Nat :=
  let limited := k < 16 && (entryComp port k s).any (fun c => c.hostRate ≠ 0)
  let fill := bucketFill port k s
  let held := heldAt port s
  let mine := held.any (fun h => entryOf port h.req.biId.toNat s == some k)
  let agent := if mine then 3 else if !limited || fill * 2 ≥ 65536 then 0 else if fill * 10 ≥ 65536 then 1 else 2
  let n := held.length
  let portLevel := if n * 4 < 1024 then 0 else if n * 2 < 1024 then 1 else if n * 4 < 3072 then 2 else 3
  max agent portLevel

/-- Complete a CXL.mem request to its host. -/
def hostComplete (port k hpa kind : Nat) (data : Line) (poison : Bool) (s : State) : State :=
  let d := devLoad port k s
  s |> emit (.hostCpl port k hpa kind data poison d) |> onlyIf (d == 3) (finc (PRT_EVENT_CNT port 8))

/-- The line a bulk transaction waited for has come; when all have, it is answered (R164). -/
def bulkLine (id i : Nat) (data : Line) (bit : Bool) (s : State) : State :=
  match s.coh.bulks.find? (fun b => b.id == id) with
  | none => s
  | some b =>
    let ls := b.lines.set i (some (data, bit))
    if ls.all (·.isSome) then
      let s := { s with coh := { s.coh with bulks := s.coh.bulks.filter (fun x => x.id != id) } }
      let vs := ls.filterMap (fun x => x)
      if b.isWrite then send 0x4A b.node (cmpIdOf b.slot s) b.tag 0 0 [] false s
      else
        let body := vs.foldr (fun v a => lineSlots v.1 ++ a) []
        let n := vs.length
        let k := mkPkt 0x61 b.node (cmpIdOf b.slot s) b.tag 0 0 body (vs.any (·.2)) (1 + 4 * n) s
        route k s
    else { s with coh := { s.coh with bulks := s.coh.bulks.map (fun x => if x.id == id then { b with lines := ls } else x) } }

/-- A tile whose load waits under software coherence is filled by CurData (R141, R142). -/
def fillCur (t slot line : Nat) (data : Line) (bit : Bool) (s : State) : State :=
  let k := (t * 64 + slot) * 2 ^ 50 + line
  match kget? s.coh.copies k with
  | some c => if c.st = .isD then
      let d := c.pend.foldl (fun a x => (overlay a.1 x.1 x.2, a.2 ||| x.2)) (data, 0)
      { s with coh := { s.coh with copies := kput s.coh.copies k { c with st := .s, data := d.1, dirty := d.2, bittern := bit, pend := [] } } }
    else s
  | none => s

/-- Send the completion of an access (R128, R133, R164, R165). -/
def sendReply (r : Reply) (slot line : Nat) (data : Line) (bit : Bool) (s : State) : State :=
  match r with
  | .none => s
  | .tile t k => s |> onlyIf (k == 3) (fillCur t slot line data bit)
      |> emit (.toTile t ([0x40, 0x41, 0x42, 0x4C, 0x4A, 0x4B].getD k 0x4C) slot line .home data bit)
  | .peer n tag opc =>
    let body := if opc = 0x4A then [] else if opc = 0x4B then [BitVec.ofNat 128 data.toNat] else lineSlots data
    send opc n (cmpIdOf slot s) tag (line * 64) 0 body bit s
  | .host p k hpa kind => hostComplete p k hpa kind data bit s
  | .bulk id i => bulkLine id i data bit s

/-- The answer to an access that no memory serves (R27, R61, R63): poison or a discarded write to a host, a Nak to a
peer. -/
def replyUnbacked (a : Acc) (s : State) : State :=
  let write := match a.op with | .read => false | _ => true
  match a.reply with
  | .host p k hpa kind =>
    s |> finc (PRT_EVENT_CNT p (if write then 5 else 4)) |> hostComplete p k hpa kind 0 (!write)
  | .peer n tag _ =>
    s |> finc (CMP_UNBACKED_CNT a.slot)
      |> sendNak { src := BitVec.ofNat 12 n, cmpId := BitVec.ofNat 16 (cmpIdOf a.slot s), tag := BitVec.ofNat 16 tag } 4
  | _ => s

/-- The answer to an access whose home has failed (R87): poison or a discarded write to a host; a peer is not
answered and reaches its own limit. -/
def replyFailed (a : Acc) (s : State) : State :=
  let write := match a.op with | .read => false | _ => true
  match a.reply with
  | .host p k hpa kind =>
    s |> finc (PRT_EVENT_CNT p (if write then 5 else 6)) |> hostComplete p k hpa kind 0 (!write)
  | _ => s

/-! ### Versioned regions (chapter 4) -/

/-- The region that holds a pool address. -/
def regionAt (slot pa : Nat) (s : State) : Option Region :=
  s.hv.regions.find? (fun r => r.slot == slot && r.base ≤ pa && pa < r.base + r.length)

/-- Change the region with a base. -/
def modRegion (slot base : Nat) (f : Region → Region) (s : State) : State :=
  { s with hv := { s.hv with regions := s.hv.regions.map (fun r => if r.slot == slot && r.base == base then f r else r) } }

/-- A harvest is live (R104). -/
def isLive (h : Harvest) : Bool := h.st != .closed

/-- Blocks of a region's harvests. -/
def regionBlocks (r : Region) : Nat := (r.harvests.map (fun h => h.blocks.length)).sum

/-- Blocks held by a composition (R104). -/
def blocksUsed (slot : Nat) (s : State) : Nat :=
  ((s.hv.regions.filter (fun r => r.slot == slot)).map regionBlocks).sum

/-- Blocks of a list of reserve frames. -/
def frameBlocks (near : List Nat) (far : List (Option Nat)) : Nat :=
  (near.length + (far.filter (·.isSome)).length) * 512

/-- The reserve of a composition in blocks (R106): while a delta that lowers it is past the check of R44, the lower of
the old and new values. -/
def reserveBlocks (slot : Nat) (s : State) : Nat :=
  match compAt slot s with
  | none => 0
  | some c =>
    let own := frameBlocks c.resvNear c.resvFar
    if s.img.deltaPhase = .marking then
      match s.img.staged with
      | some d =>
        match d.entries.find? (fun e => e.1.cmpId == c.cmpId && e.2) with
        | some e => min own (e.1.harvestReserve / frameBytes * 512)
        | none => own
      | none => own
    else own

/-- Bring the counts of CMP_HARVEST_USE up to date. -/
def showUse (slot : Nat) (s : State) : State :=
  let live := ((s.hv.regions.filter (fun r => r.slot == slot)).map (fun r => (r.harvests.filter isLive).length)).sum
  s |> fset (CMP_HARVEST_USE_BLOCKS_USED slot) (blocksUsed slot s) |> fset (CMP_HARVEST_USE_LIVE_HARVESTS slot) live

/-- The use of a reserve may have changed: the counts, and the warning at each upward crossing of 75 % (R106). A delta
that only lowers the reserve is not a rise of its use (DEDUCED, assumption 89). -/
def updateUse (slot : Nat) (s : State) : State :=
  let used := blocksUsed slot s
  let cap := reserveBlocks slot s
  let s := showUse slot s
  let above := cap > 0 && used * 4 ≥ cap * 3
  let was := kmem s.hv.warned slot
  let s := { s with hv := { s.hv with warned := kin s.hv.warned slot above } }
  if above && !was then
    s |> fset (CMP_HARVEST_USE_WARN_STK slot) 1 |> eventF 0x0011 (cmpIdOf slot s)
  else s

/-- Mark the views of a closed harvest. -/
def closeViews (slot base version : Nat) (s : State) : State :=
  { s with hv := { s.hv with views := s.hv.views.map (fun v =>
      if v.slot == slot && v.base == base && v.version == version then { v with closed := true } else v) } }

/-- Close the oldest live harvest of a region (R107): LIVE goes, HELD and RETIRING become CLOSED; all its blocks
return; counted and reported. -/
def closeOldest (slot base : Nat) (exhaust : Bool) (s : State) : State :=
  match s.hv.regions.find? (fun r => r.slot == slot && r.base == base) with
  | none => s
  | some r =>
    match r.harvests.find? isLive with
    | none => s
    | some h =>
      let hs := if h.st = .live then r.harvests.filter (fun x => x.version != h.version)
        else r.harvests.map (fun x => if x.version == h.version then { x with st := .closed, blocks := [], zeros := [] } else x)
      s |> modRegion slot base (fun r => { r with harvests := hs })
        |> closeViews slot base h.version
        |> onlyIf exhaust (fset (CMP_HARVEST_USE_EXHAUST_STK slot) 1)
        |> finc (CMP_HARVEST_CLOSED_CNT slot)
        |> eventF 0x0012 (cmpIdOf slot s)
        |> updateUse slot

/-- Close live harvests of a region oldest first, until one that held a block has closed (`all` = false), or all. -/
def closeUntil (slot base : Nat) (exhaust all : Bool) : Nat → State → State
  | 0, s => s
  | n + 1, s =>
    match s.hv.regions.find? (fun r => r.slot == slot && r.base == base) with
    | none => s
    | some r =>
      match r.harvests.find? isLive with
      | none => s
      | some h =>
        let t := closeOldest slot base exhaust s
        if !all && !h.blocks.isEmpty then t else closeUntil slot base exhaust all n t

/-- The cut of a region's oldest live harvest. -/
def oldestCut (r : Region) : Nat := ((r.harvests.find? isLive).map (·.cut)).getD 0

/-- The region chosen for closing by exhaustion (R106): ORDINARY before PROTECTED, then the oldest cut. -/
def victimRegion (slot : Nat) (s : State) : Option Region :=
  let rs := s.hv.regions.filter (fun r => r.slot == slot && r.harvests.any (fun h => isLive h && !h.blocks.isEmpty))
  let better (a b : Region) : Bool :=
    (!a.isProtected && b.isProtected) || (a.isProtected == b.isProtected && oldestCut a ≤ oldestCut b)
  rs.foldl (fun m r => match m with | none => some r | some x => if better x r then some x else some r) none

/-- Closing by exhaustion for a write to a region (R106). -/
def exhaustFor (slot base : Nat) (s : State) : State :=
  match victimRegion slot s with
  | some r => closeUntil slot r.base true false 4096 s
  | none => closeUntil slot base true true 4096 s

/-- What a write to a page of a region needs first (R99). -/
inductive CopyNeed where
  | nothing | zero | copy
  deriving DecidableEq, Repr

/-- Decide it: the newest live harvest keeps the page's old contents once. -/
def copyNeed (slot pa page : Nat) (s : State) : CopyNeed :=
  match regionAt slot pa s with
  | none => .nothing
  | some r =>
    match (r.harvests.filter isLive).getLast? with
    | none => .nothing
    | some h =>
      let i := (pa - r.base) / 4096
      if (kget? h.blocks i).isSome || kmem h.zeros i then .nothing
      else if isWritten page s then .copy else .zero

/-- Blocks of a composition that lie in near frames of its reserve. -/
def nearBlocks (slot : Nat) (s : State) : Nat :=
  ((s.hv.regions.filter (fun r => r.slot == slot)).map (fun r =>
    (r.harvests.map (fun h => (h.blocks.filter (fun b => !b.2.far)).length)).sum)).sum

/-- A new block lies in a far frame when every near frame of the reserve is full (R103). -/
def blockFar (slot : Nat) (s : State) : Bool :=
  ((compAt slot s).map (·.resvNear.length)).getD 0 * 512 ≤ nearBlocks slot s

/-- Record a page in the newest live harvest of its region. -/
def recordPage (slot pa : Nat) (b : Option Block) (s : State) : State :=
  match regionAt slot pa s with
  | none => s
  | some r =>
    match (r.harvests.filter isLive).getLast? with
    | none => s
    | some h =>
      let i := (pa - r.base) / 4096
      let h' := match b with
        | some x => { h with blocks := kput h.blocks i { x with far := blockFar slot s } }
        | none => { h with zeros := kin h.zeros i true }
      s |> modRegion slot r.base (fun r => { r with harvests := r.harvests.map (fun x => if x.version == h.version then h' else x) })
        |> updateUse slot

/-- The contents of a page as a version block. -/
def pageBlock (page : Nat) (s : State) : Block :=
  { lines := (List.range 64).map (fun i => cellLine (page * 64 + i) s),
    bittern := (List.range 64).map (fun i => kmem s.mem.bittern (page * 64 + i)) }

/-! ### Atomics (R165) -/

/-- The new value of the addressed bytes. -/
def atomValue (aop w old a b : Nat) : Nat :=
  let m := 2 ^ w
  let si := toInt w
  match aop with
  | 0x01 => (old + a) % m
  | 0x02 => if si a < si old then a else old
  | 0x03 => if si old < si a then a else old
  | 0x04 => min old a
  | 0x05 => max old a
  | 0x06 => old &&& a
  | 0x07 => old ||| a
  | 0x08 => old ^^^ a
  | 0x09 => a
  | 0x0A => if old = a then b else old
  | 0x0B => (fadd32 old a).1
  | _ => old

/-- Apply an atomic to a line: the new line and the old value. -/
def atomLine (ctl opA opB : BitVec 64) (l : Line) : Line × Nat :=
  let c := ctl.toNat
  let bytes := if bitsOf c 8 2 = 0 then 4 else 8
  let w := 8 * bytes
  let off := 8 * bitsOf c 16 6
  let old := bitsOf l.toNat off w
  let new := atomValue (bitsOf c 0 8) w old (opA.toNat % 2 ^ w) (opB.toNat % 2 ^ w)
  (BitVec.ofNat 512 (l.toNat - old * 2 ^ off + new * 2 ^ off), old)

/-! ### The access -/

/-- The page is held. -/
def isBusy (page : Nat) (s : State) : Bool := s.mem.busy.any (fun b => b.1 == page)

/-- Hold a page. -/
def hold (page : Nat) (w : BusyWhy) (s : State) : State :=
  { s with mem := { s.mem with busy := s.mem.busy ++ [(page, w)] } }

/-- Queue an access behind the hold. -/
def waitAcc (a : Acc) (s : State) : State := { s with mem := { s.mem with waits := s.mem.waits ++ [a] } }

/-- It writes. -/
def accWrites (a : Acc) : Bool :=
  match a.op with | .read => false | .ack => false | _ => true

/-- A prefetch that is copying the page meets a write: the page is skipped (R75). -/
def noteDirtied (page : Nat) (s : State) : State :=
  { s with slc := { s.slc with descs := s.slc.descs.map (fun d =>
      match d.mig with
      | some m => if m.prefetch && m.pages.contains page then { d with mig := some { m with dirtied := page :: m.dirtied } } else d
      | none => d) } }

/-- Apply the write of an access to the cells of its line, which is written memory or is being filled. -/
def applyWrite (a : Acc) (p : Nat) (s : State) : State :=
  let pl := p / 64
  match a.op with
  | .write d m =>
    let full := m = BitVec.allOnes 64
    s |> sealTouched a.slot |> setCells pl d m
      |> (if a.poison then setBittern a.slot pl true else if full then setBittern a.slot pl false else fun s => s)
  | .atomic c x y => s |> sealTouched a.slot |> setCells pl (atomLine c x y (cellLine pl s)).1 (BitVec.allOnes 64)
  | .mark => setBittern a.slot pl true s
  | _ => s

/-- What the completion of an access carries: the line read, or the old value of an atomic. -/
def accAnswer (a : Acc) (p : Nat) (s : State) : Line × Bool :=
  let pl := p / 64
  let d := if isWritten (p / 4096) s then cellLine pl s else 0
  match a.op with
  | .read => (d, isBittern pl s)
  | .atomic c x y => (BitVec.ofNat 512 (atomLine c x y d).2, isBittern pl s)
  | _ => (0, false)

/-- Complete an access: a completion of a write carries no data and no poison. -/
def finishAcc (a : Acc) (ans : Line × Bool) (s : State) : State := sendReply a.reply a.slot a.line ans.1 ans.2 s

/-- An access at a place whose page is free: a read; or a write, which may first need a version copy (R99), a closing
by exhaustion (R106), or a fill (R83). -/
def runAcc (a : Acc) (p l : Nat) (s : State) : State :=
  let page := p / 4096
  let pa := a.line * 64
  let s := match a.op with
    | .ack => s
    | .mark => s
    | _ => heat a.slot l (accWrites a) a.remote s
  match a.op with
  | .ack => finishAcc a (0, false) s
  | .read =>
    let s := if isWritten page s then s else finc (CMP_NW_READ_CNT a.slot) s
    finishAcc a (accAnswer a p s) s
  | _ =>
    match copyNeed a.slot pa page s with
    | .copy =>
      if blocksUsed a.slot s < reserveBlocks a.slot s then s |> hold page .copy |> waitAcc a
      else s |> exhaustFor a.slot ((regionAt a.slot pa s).map (·.base) |>.getD 0) |> hold page .exhaust |> waitAcc a
    | need =>
      let s := if need = .zero then recordPage a.slot pa none s else s
      let s := noteDirtied page s
      let ans := accAnswer a p s
      if isWritten page s then s |> applyWrite a p |> finishAcc a ans
      else
        -- first write: the fill writes the whole page; the access completes when it ends
        s |> applyWrite a p |> hold page .fill
          |> waitAcc { a with op := .ack, reply := a.reply }

/-- One access at the home (R26): in the order of arrival; a page that is held keeps it waiting; writes wait while a
cut of their region is made (R95). -/
def doAcc (a : Acc) (s : State) : State :=
  match compAt a.slot s with
  | none => replyUnbacked a s
  | some c =>
    match splitPa c (a.line * 64), homeOf c (a.line * 64) s with
    | some (_, l), .here (.at_ p) =>
      if isBusy (p / 4096) s then waitAcc a s
      else if accWrites a && !a.back && (regionAt a.slot (a.line * 64) s).any (fun r => r.publishing.isSome) then waitAcc a s
      else if !tierUp p s then replyFailed a s
      else runAcc a p l s
    | _, .here .unallotted => replyFailed a s
    | _, _ => replyUnbacked a s

/-- The physical page of a waiting access. -/
def accPage (a : Acc) (s : State) : Option Nat :=
  match compAt a.slot s with
  | none => none
  | some c => (physOf c (a.line * 64) s).map (· / 4096)

/-- Run again, in order, the waiting accesses that satisfy a test. -/
def rerun (test : Acc → State → Bool) (s : State) : State :=
  let ready := s.mem.waits.filter (fun a => test a s)
  let s := { s with mem := { s.mem with waits := s.mem.waits.filter (fun a => !test a s) } }
  each ready doAcc s

/-- End the hold of a page and let its waiting accesses proceed. -/
def releasePage (page : Nat) (w : BusyWhy) (s : State) : State :=
  { s with mem := { s.mem with busy := s.mem.busy.filter (fun b => b != (page, w)) } }
    |> rerun (fun a s => accPage a s == some page)

/-- The fill of a first write ends: the page is written from then on (R83). -/
def endFill (page : Nat) (s : State) : State :=
  if s.mem.busy.contains (page, .fill) then
    { s with mem := { s.mem with written := kin s.mem.written page true } } |> releasePage page .fill
  else s

/-- The pool address a waiting write of a page names. -/
def waitingPa (page : Nat) (s : State) : Option (Nat × Nat) :=
  (s.mem.waits.find? (fun a => accPage a s == some page)).map (fun a => (a.slot, a.line * 64))

/-- The version copy of a page ends: its old contents are in a block of the newest live harvest (R99). -/
def endCopy (page : Nat) (s : State) : State :=
  if s.mem.busy.contains (page, .copy) then
    let s := match waitingPa page s with
      | some (slot, pa) => recordPage slot pa (some (pageBlock page s)) s
      | none => s
    releasePage page .copy s
  else s

/-- The write that waited on a closing by exhaustion continues (R106). -/
def endExhaust (page : Nat) (s : State) : State :=
  if s.mem.busy.contains (page, .exhaust) then releasePage page .exhaust s else s

/-! ### Errors met by a read (R108, R449) -/

/-- The lifetime record's entry of an uncorrectable near line (R530). -/
def logUe (layer p : Nat) (s : State) : State := logEvent 0x05 (vaultOf p) (layer + vaultOf p * 2 ^ 8) s

/-- What ECC finds in a line: in a near line a correctable error is corrected and counted, an uncorrectable one is counted
and makes the line bittern; a far line's expander corrects by itself, and its poison is bittern (R449). A never-written
page is not read (R81). -/
def meetEcc (slot p : Nat) (e : Ecc) (s : State) : State :=
  if !isWritten (p / 4096) s then s else
  match e with
  | .clean => s
  | .ce => if p < farBase then finc (RAS_ERR_CNT 0) s else s
  | .ue =>
    if p < farBase then
      let (layer, s) := takeFree 4 s
      s |> finc (RAS_ERR_CNT 1) |> setBittern slot (p / 64) true |> logUe layer.toNat p
    else setBittern slot (p / 64) true s

/-- The uncorrectable lines of a page that a copy of it reads. -/
def meetPage (slot page : Nat) (ue : List Nat) (s : State) : State :=
  each (ue.filter (fun n => n / 64 == page)) (fun n s => meetEcc slot (n * 64) .ue s) s

/-- VERSION_COPY_DONE: the copy read the page's lines, `ue` of them uncorrectable (R99, R111). -/
def versionCopyDone (page : Nat) (ue : List Nat) (s : State) : State :=
  if !s.mem.busy.contains (page, .copy) then s else
  match waitingPa page s with
  | some (slot, _) => s |> meetPage slot page ue |> endCopy page
  | none => endCopy page s

end Sys2Proof.Machine
end

