-- ==== Sys2Proof/Machine/Fatal.lean ====
section
/-! DEFINITION. Fatal errors and what they share: composition states (R56), rejected and abandoned deltas (R45, R51),
fatal composition errors (R465, R466) and fatal internal errors (R467). -/

namespace Sys2Proof.Machine

/-- Bring CMP_STATE of a slot up to date (R56). -/
def showState (slot : Nat) (s : State) : State :=
  match compAt slot s with
  | none =>
    s |> fset (CMP_STATE_CMP_ID slot) 0 |> fset (CMP_STATE_SLOT slot) 0 |> fset (CMP_STATE_STATE slot) 0
      |> fset (CMP_STATE_COHERENCE slot) 0 |> fset (CMP_STATE_SERIAL_LO slot) 0
  | some c =>
    s |> fset (CMP_STATE_CMP_ID slot) c.cmpId |> fset (CMP_STATE_SLOT slot) slot
      |> fset (CMP_STATE_STATE slot) (match c.state with | .active => 1 | .changing => 2 | .failed => 3)
      |> fsetb (CMP_STATE_COHERENCE slot) c.software
      |> fset (CMP_STATE_SERIAL_LO slot) (s.img.serial % 2 ^ 32)

/-- Set the state of a composition. -/
def setCState (slot : Nat) (st : CState) (s : State) : State :=
  s |> modComp slot (fun c => { c with state := st }) |> showState slot

/-- A delta is rejected or abandoned: the running configuration is unchanged, the code is reported, the event sent, and
named compositions return to ACTIVE (R45, R46, R56). -/
def rejectDelta (code : Nat) (s : State) : State :=
  let s := { s with img := { s.img with deltaPhase := .idle, deltaBuf := [], staged := none } }
  let s := each s.comps (fun c s => if c.state = .changing then setCState c.slot .active s else s) s
  s |> fset MGT_IMAGE_RESULT_DELTA_RESULT code |> fset MGT_IMAGE_RESULT_DELTA_FAIL_STK 1
    |> eventD 0x0003 0 code

/-- The delta in progress names a composition. -/
def deltaNames (cmpId : Nat) (s : State) : Bool :=
  match s.img.staged with
  | some d => d.entries.any (fun e => e.1.cmpId == cmpId)
  | none => false

/-- Abandon a delta whose named composition fails before step 4, unless the delta removes it (R51). -/
def abandonIfNamed (cmpId : Nat) (s : State) : State :=
  match s.img.staged with
  | some d =>
    if s.img.deltaPhase != .marking && d.entries.any (fun e => e.1.cmpId == cmpId && e.2) then rejectDelta 0x11 s else s
  | none => s

/-- Change a descriptor. -/
def modDesc (id : Nat) (f : Desc → Desc) (s : State) : State :=
  { s with slc := { s.slc with descs := s.slc.descs.map (fun d => if d.id == id then f d else d) } }

/-- The descriptor with an id. -/
def descOf (id : Nat) (s : State) : Option Desc := s.slc.descs.find? (fun d => d.id == id)

/-- End a descriptor's work with a status; a descriptor whose work has ended keeps its result. -/
def endWork (id status : Nat) (s : State) : State :=
  modDesc id (fun d => if d.phase == .finished || d.phase == .skipped then d
    else { d with phase := .finished, status := status }) s

/-- Directory keys of a composition. -/
def lineKey (slot line : Nat) : Nat := slot * 2 ^ 50 + line

/-- Keep DIR_STATUS and DIR_CMP_USED in step with the directory. -/
def showDir (slot : Nat) (s : State) : State :=
  let inSlot (k : Nat) : Bool := k / 2 ^ 50 == slot
  s |> fset DIR_STATUS_HOME_USED s.coh.dir.length |> fset DIR_STATUS_FILTER_USED s.coh.filter.length
    |> fset (DIR_CMP_USED_HOME_USED slot) (s.coh.dir.filter (fun e => inSlot e.1)).length
    |> fset (DIR_CMP_USED_FILTER_USED slot) (s.coh.filter.filter (fun e => inSlot e.1)).length

/-- Everything a composition holds in the directory, the caches and the port queues returns to its pool (R467). -/
def dropHoldings (slot : Nat) (s : State) : State :=
  let other (k : Nat) : Bool := k / 2 ^ 50 != slot
  let s := { s with coh := { s.coh with
      dir := kkeep s.coh.dir other, filter := kkeep s.coh.filter other,
      copies := kkeep s.coh.copies (fun k => k / 2 ^ 50 % 64 != slot),
      hostSnps := s.coh.hostSnps.filter (fun h => h.slot != slot),
      bulks := s.coh.bulks.filter (fun b => b.slot != slot) } }
  let s := { s with fab := { s.fab with tags := s.fab.tags.filter (fun t =>
      match t.2.use with
      | .filter sl _ => sl != slot
      | .home sl _ => sl != slot
      | .inval _ sl _ => sl != slot
      | _ => true) } }
  let s := { s with mem := { s.mem with waits := s.mem.waits.filter (fun a => a.slot != slot) } }
  let mine (d : Nat) : Bool := s.slc.descs.any (fun x => x.id == d && x.slot == slot)
  let s := { s with pan := { s.pan with pieces := s.pan.pieces.filter (fun p => !mine p.desc) } }
  showDir slot s

/-- A composition enters FAILED (R56, R57, R182, R467): viral on its ports, its sluices FAILED, their descriptors end
with 0x3F, and it holds nothing. -/
def enterFailed (slot : Nat) (s : State) : State :=
  match compAt slot s with
  | none => s
  | some c =>
    if c.state = .failed then s else
    let s := setCState slot .failed s
    let s := each ((List.range 24).filter (fun p => bitAt c.portMask p)) (fun p => emit (.viral p)) s
    let s := each s.slc.descs (fun d s => if d.slot = slot then endWork d.id 0x3F s else s) s
    let mine := s.slc.sluices.filter (fun e => c.sluiceFirst ≤ e.1 && e.1 < c.sluiceFirst + c.sluiceCount)
    let s := each mine (fun e s =>
      if fget (SLC_STATUS_STATE e.1) s = 0 then s else fset (SLC_STATUS_STATE e.1) 5 s) s
    dropHoldings slot s

/-- Tell every other member that a composition failed (R466): PoolEvent, kind 4 (assumption 12). -/
def tellFailed (c : Comp) (s : State) : State :=
  each c.members (fun n s => if n = myNode s then s
    else send 0x88 n c.cmpId 0 0 (4 * 2 ^ 12) [BitVec.ofNat 128 c.cmpId, 0] false s) s

/-- A fatal composition error raised on this Slosin (R465, R466). -/
def fatalComp (slot : Nat) (s : State) : State :=
  match compAt slot s with
  | none => s
  | some c =>
    if c.state = .failed then s else
    s |> abandonIfNamed c.cmpId |> enterFailed slot |> tellFailed c |> finc (RAS_ERR_CNT 10) |> eventF 0x0010 c.cmpId

/-- A port's link goes down, with its register fields. -/
def portDown (p : Nat) (s : State) : State :=
  s |> fset (PRT_STATUS_LINK_UP p) 0 |> fset (PRT_STATUS_WIDTH p) 0 |> fset (PRT_STATUS_RATE p) 0
    |> fset (PRT_STATUS_FLIT256 p) 0 |> fset (PRT_STATUS_PARITY_ON p) 0 |> fset (PRT_STATUS_DOWN_STK p) 1 |> finc (PRT_EVENT_CNT p 2)

/-- Every port's link goes down. -/
def allPortsDown (s : State) : State :=
  each (List.range 24) (fun p s =>
    if fbit (PRT_STATUS_LINK_UP p) s then portDown p s else s) s

/-- A fatal internal error (R467): the data path stops until a reset. -/
def fatalInternal (s : State) : State :=
  let s := { s with mgt := { s.mgt with stopped := true } } |> logEvent 0x08 0 0
  let s := each s.comps (fun c s => if c.state = .failed then s else fatalComp c.slot s) s
  s |> allPortsDown |> fset RAS_STATUS_FATAL_INT_STK 1 |> fset GLB_PKG_STATUS_FAULT 1 |> eventF 0x0045 0

/-- Count a duration the model has no clock for: a free value of 32 bits (assumption 5). -/
def addFreeNs (f : Fld) (s : State) : State :=
  let (n, s) := takeFree 32 s
  fadd f n.toNat s

end Sys2Proof.Machine
end

