-- ==== Sys2Proof/Machine/Coherence.lean ====
section
/-! DEFINITION. The directory at the home (R132 to R136): what a request does in each state of its line, the snoops it
sends, the responses it counts, the grants and completions it makes. -/

namespace Sys2Proof.Machine

/-! ### Directory lines -/

/-- The directory line of a home line. -/
def getDir (slot line : Nat) (s : State) : DirLine := kgetD s.coh.dir (lineKey slot line) {}

/-- Set or clear the TRACKED bit of a home line (R121). -/
def track (slot line : Nat) (b : Bool) (s : State) : State :=
  match (compAt slot s).bind (fun c => physOf c (line * 64) s) with
  | some p => if p < farBase then { s with mem := { s.mem with tracked := kin s.mem.tracked (p / 64) b } } else s
  | none => s

/-- Write a directory line back: an entry exists while the state is not U. -/
def setDir (slot line : Nat) (d : DirLine) (s : State) : State :=
  let k := lineKey slot line
  let had := (kget? s.coh.dir k).isSome
  let d' := if had then d else { d with born := s.coh.births }
  let keep := d.st != .u || !d.queue.isEmpty
  let s := { s with coh := { s.coh with
      dir := if keep then kput s.coh.dir k d' else kdel s.coh.dir k,
      births := if had then s.coh.births else s.coh.births + 1 } }
  s |> track slot line (d.st != .u) |> showDir slot

/-- The agent is a host. -/
def isHostA : Option Agent → Bool
  | some (.host _) => true
  | _ => false

/-- The agent is a tile or a peer. -/
def isTP : Option Agent → Bool
  | some (.tile _) => true
  | some (.peer _) => true
  | _ => false

/-- An Err message (R126): from a tile or peer a fatal composition error, from a host discarded and reported. -/
def errMsg (host : Bool) (slot : Nat) (s : State) : State :=
  let s := finc (DIR_EVENT_CNT 3) s
  if host then s |> fset DIR_STATUS_UNEXPECTED_STK 1 |> eventF 0x0013 (cmpIdOf slot s)
  else fatalComp slot s

/-! ### What a request needs (R136) -/

/-- What the table says of a request that finds its line in U, S, SF or EM. -/
structure Plan where
  err : Bool := false
  snoops : List (Agent × Snp) := []
  st : DSt := .u
  sharers : List Agent := []
  fw : Option Agent := none
  owner : Option Agent := none
  deriving DecidableEq, Repr

/-- The holders other than the requester. -/
def others (d : DirLine) (r : HReq) : List Agent :=
  (d.sharers ++ d.fw.toList).filter (fun a => some a != r.agent)

/-- Add an agent to a list once. -/
def addA (a : Agent) (l : List Agent) : List Agent := if l.contains a then l else l ++ [a]

/-- The line as it is. -/
def keepPlan (d : DirLine) : Plan := { st := d.st, sharers := d.sharers, fw := d.fw, owner := d.owner }

/-- The directory-side table for requests that grant, read or write. -/
def planOf (d : DirLine) (r : HReq) : Plan :=
  let req := r.agent.toList
  let own : Plan := { st := .em, owner := r.agent }
  let ownIsReq := d.owner.isSome && d.owner == r.agent
  let invAll : List (Agent × Snp) := (others d r).map (fun a => (a, .inv))
  let invEvery : List (Agent × Snp) := (d.sharers ++ d.fw.toList).map (fun a => (a, .inv))
  let toOwner (k : Snp) : List (Agent × Snp) := d.owner.toList.map (fun a => (a, k))
  match r.kind with
  | .rdS =>
    match d.st with
    | .u => if isHostA r.agent then { st := .s, sharers := req } else own
    | .s => if isHostA r.agent then { st := .s, sharers := d.sharers ++ req.filter (fun a => !d.sharers.contains a) }
            else { st := .sf, sharers := d.sharers.filter (fun a => some a != r.agent), fw := r.agent }
    | .sf => if isHostA r.agent then { keepPlan d with sharers := d.sharers ++ req.filter (fun a => !d.sharers.contains a) }
             else if d.fw == r.agent then keepPlan d
             else { snoops := d.fw.toList.map (fun a => (a, .s)), st := .sf,
                    sharers := (d.fw.toList.foldl (fun l a => addA a l) d.sharers).filter (fun a => some a != r.agent), fw := r.agent }
    | _ => if ownIsReq then
             if isHostA r.agent then { st := .s, sharers := req } else { err := true }
           else if isHostA r.agent then { snoops := toOwner .s, st := .s, sharers := d.owner.toList ++ req }
           else { snoops := toOwner .s, st := .sf, sharers := d.owner.toList, fw := r.agent }
  | .rdX | .upg =>
    match d.st with
    | .u => own
    | .s | .sf => { own with snoops := invAll }
    | _ => if ownIsReq then
             if isHostA r.agent then (if r.kind = .upg then keepPlan d else own) else { err := true }
           else { own with snoops := toOwner .x }
  | .rdCur =>
    match d.st with
    | .em => if ownIsReq && isHostA r.agent then { st := .u } else { keepPlan d with snoops := toOwner .cur }
    | _ => keepPlan d
  | .write | .atom =>
    match d.st with
    | .u => { st := .u }
    | .em => { snoops := toOwner .inv, st := .u }
    | _ => { snoops := invEvery, st := .u }
  | .keep =>
    match d.st with
    | .em => { snoops := toOwner .s, st := .s, sharers := d.owner.toList }
    | _ => keepPlan d
  | .drop | .discard =>
    match d.st with
    | .u => { st := .u }
    | .em => { snoops := toOwner .inv, st := .u }
    | _ => { snoops := invEvery, st := .u }
  | _ => keepPlan d

/-! ### Snoops and their addressees -/

/-- Packet opcodes of the snoops. -/
def snpOpc : Snp → Nat
  | .s => 0x20 | .x => 0x21 | .inv => 0x22 | .cur => 0x23

/-- The port and entry at which a host agent of a composition attaches here. -/
def entryOfAgent (slot agent : Nat) (s : State) : Option (Nat × Nat) :=
  ((List.range 24).flatMap (fun p => (List.range 16).map (fun k => (p, k)))).find? (fun x =>
    fbit (PRT_AGENT_VALID x.1 x.2) s && fget (PRT_AGENT_SLOT x.1 x.2) s == slot && fget (PRT_AGENT_AGENT x.1 x.2) s == agent)

/-- The host physical address of a line at an agent entry (R393). -/
def hpaOf (port k line : Nat) (s : State) : Nat :=
  ((kget? s.prt.hdm (port * 16 + k)).map (·.base)).getD 0 + line * 64

/-- Send a back-invalidation snoop on a port and remember it (R128). -/
def biSnoop (h : HostSnp) (s : State) : State :=
  { s with coh := { s.coh with hostSnps := s.coh.hostSnps ++ [h] } }
    |> emit (.biSnp h.port h.entry (hpaOf h.port h.entry h.line s) h.snp)

/-- The node of a member index. -/
def memberNode (slot m : Nat) (s : State) : Nat := ((compAt slot s).bind (fun c => c.members[m]?)).getD 0

/-- Send one snoop of a transaction (R129, R133). The target is the requester when it and the snooped agent are both
tile or peer agents, and the home otherwise. -/
def sendSnoop (slot line : Nat) (t : Txn) (a : Agent) (k : Snp) (s : State) : State :=
  let fwd := t.forwarded
  let me := myNode s
  match a with
  | .tile n =>
    let target : Tgt := if !fwd then .home else
      match t.req.reply with
      | .tile r _ => .tile (Fin.ofNat 32 r)
      | .peer node tag _ => .node (BitVec.ofNat 12 node) (BitVec.ofNat 16 tag) (BitVec.ofNat 16 (fget (peerIncFld node) s))
      | _ => .home
    emit (.toTile n (snpOpc k) slot line target 0 false) s
  | .peer m =>
    let (tn, tt) := if !fwd then (me, t.tag) else
      match t.req.reply with
      | .peer node tag _ => (node, tag)
      | _ => (me, t.tag)
    let inc := if tn = me then fget FAB_NODE_INCARNATION s else fget (peerIncFld tn) s
    send (snpOpc k) (memberNode slot m s) (cmpIdOf slot s) t.tag (line * 64) (tn + tt * 2 ^ 16 + inc * 2 ^ 32) [] false s
  | .host h =>
    match kget? s.coh.routes (slot * 256 + h) with
    | some node =>
      send (snpOpc k) node (cmpIdOf slot s) t.tag (line * 64)
        (me + t.tag * 2 ^ 16 + fget FAB_NODE_INCARNATION s * 2 ^ 32 + h * 2 ^ 48 + 2 ^ 56) [] false s
    | none =>
      match entryOfAgent slot h s with
      | some (p, e) => biSnoop { port := p, entry := e, slot, line, snp := k } s
      | none => s

/-! ### Grants -/

/-- Fill in the packet opcode of a reply. -/
def withOpc (opc : Nat) (r : Reply) : Reply :=
  match r with
  | .tile t _ => .tile t (match opc with | 0x40 => 0 | 0x41 => 1 | 0x42 => 2 | 0x4C => 3 | 0x4A => 4 | _ => 5)
  | .peer n t _ => .peer n t opc
  | x => x

/-- Fill in the CXL completion of a host's reply; a relayed host's is carried as Data_F for Cmp-S, Data_E for Cmp-E and
CurData for Cmp (assumption 13). -/
def hostGrant (kind : Nat) (r : Reply) : Reply :=
  match r with
  | .host p k h _ => .host p k h kind
  | .peer n t _ => .peer n t (match kind with | 0 => 0x40 | 1 => 0x41 | _ => 0x4C)
  | x => x

/-- Send a completion that carries no data: Cmp (0x43), WbAck (0x44). -/
def sendShort (opc slot line : Nat) (r : Reply) (s : State) : State :=
  match r with
  | .tile t _ => emit (.toTile t opc slot line .home 0 false) s
  | .peer n tag _ => send opc n (cmpIdOf slot s) tag 0 0 [] false s
  | .host p k hpa _ => hostComplete p k hpa (if opc = 0x43 then 1 else 3) 0 false s
  | .bulk id i => bulkLine id i 0 false s
  | .none => s

/-- Read the home copy for a reply. -/
def replyRead (slot line : Nat) (r : HReq) (rep : Reply) (s : State) : State :=
  doAcc { slot, line, op := .read, reply := rep, remote := r.remote } s

/-- The requester of an Upg still holds its copy. -/
def stillSharer (d : DirLine) (r : HReq) : Bool :=
  match r.agent with
  | some a => d.sharers.contains a || d.fw == some a
  | none => false

/-- Supply and grant (R133 steps 2 and 3) once every snoop is answered: the state the line goes to, and what is sent. -/
def grant (slot line : Nat) (d : DirLine) (t : Txn) (s : State) : State :=
  let r := t.req
  match r.kind with
  | .rdS =>
    if isTP r.agent then
      if t.forwarded then s else replyRead slot line r (withOpc (if t.endSt = .em then 0x41 else 0x40) r.reply) s
    else replyRead slot line r (hostGrant 0 r.reply) s
  | .rdX =>
    if isTP r.agent then
      if t.forwarded then s else replyRead slot line r (withOpc 0x42 r.reply) s
    else replyRead slot line r (hostGrant 1 r.reply) s
  | .upg =>
    if isTP r.agent then
      if t.forwarded then s
      else if stillSharer d r then sendShort 0x43 slot line r.reply s
      else replyRead slot line r (withOpc 0x42 r.reply) s
    else sendShort 0x43 slot line r.reply s
  | .rdCur =>
    match t.rdata with
    | some (l, b) => sendReply (hostGrant 2 (withOpc 0x4C r.reply)) slot line l b s
    | none => if r.reply == .none then s else replyRead slot line r (hostGrant 2 (withOpc 0x4C r.reply)) s
  | .write => doAcc { slot, line, op := r.op, poison := r.poison, reply := hostGrant 3 (withOpc 0x4A r.reply), remote := r.remote } s
  | .atom => doAcc { slot, line, op := r.op, reply := withOpc 0x4B r.reply, remote := r.remote } s
  | _ => s

/-- A Fin follows the grant (R133 step 4). -/
def needsFin (r : HReq) : Bool :=
  isTP r.agent && (r.kind = .rdS || r.kind = .rdX || r.kind = .upg)

/-- The set a home line's entry lies in; which one is not stated (assumption 14). -/
def homeSet (slot line : Nat) : Nat := (Config.homeSet slot line).toNat

/-- Entries of a set. -/
def setEntries (set : Nat) (s : State) : List (Nat × DirLine) :=
  s.coh.dir.filter (fun e => homeSet (e.1 / 2 ^ 50) (e.1 % 2 ^ 50) == set)

/-- Holders an entry names. -/
def holders (d : DirLine) : Nat := d.sharers.length + d.fw.toList.length + d.owner.toList.length

/-- The victim of a full set: fewest holders, then least recently allocated; lines in a transaction are not chosen. -/
def victimOf (es : List (Nat × DirLine)) : Option (Nat × DirLine) :=
  (es.filter (fun e => e.2.txn.isNone)).foldl (fun m e =>
    match m with
    | none => some e
    | some x => if holders e.2 < holders x.2 || (holders e.2 = holders x.2 && e.2.born < x.2.born) then some e else some x) none

/-! ### Running transactions -/

/-- Start the snoops of a request, or finish it at once when it needs none. Answers the state and whether the line is
free for the next queued request. -/
def startTxn (slot line : Nat) (d : DirLine) (r : HReq) (s : State) : Bool × State :=
  let p := planOf d r
  if p.err then (true, errMsg false slot s) else
  let fwd := isTP r.agent && (r.kind = .rdS || r.kind = .rdX || r.kind = .upg)
    && p.snoops.any (fun x => isTP (some x.1) && (x.2 == .s || x.2 == .x))
  let (tag, s) := if p.snoops.isEmpty then (0, s) else newTag (myNode s) (.home slot line) s
  let t : Txn := { req := r, tag, await := p.snoops, forwarded := fwd,
                   endSt := p.st, endSharers := p.sharers, endFw := p.fw, endOwner := p.owner }
  if p.snoops.isEmpty then
    let s := setDir slot line { d with st := p.st, sharers := p.sharers, fw := p.fw, owner := p.owner, txn := none } s
    if needsFin r then
      let s := setDir slot line { getDir slot line s with st := .bFin, txn := some t } s
      (false, grant slot line d t s)
    else (true, grant slot line d t s)
  else
    let s := setDir slot line { d with st := .bSnp, txn := some t } s
    (false, each p.snoops (fun x => sendSnoop slot line t x.1 x.2) s)

/-- Write a Modified line's data home. -/
def writeHome (slot line : Nat) (data : Line) (bit : Bool) (s : State) : State :=
  doAcc { slot, line, op := .write data (BitVec.allOnes 64), poison := bit, back := true } s

/-- Drop an agent from a stable line's holders. -/
def clearAgent (a : Option Agent) (d : DirLine) : DirLine :=
  let sh := d.sharers.filter (fun x => some x != a)
  let fw := if d.fw == a then none else d.fw
  let st := if sh.isEmpty && fw.isNone then .u else if fw.isNone then .s else .sf
  { d with sharers := sh, fw, st }

/-- Wb, EvE and EvF in a stable state (R136). -/
def evictAt (slot line : Nat) (d : DirLine) (r : HReq) (s : State) : State :=
  let ack := sendShort 0x44 slot line r.reply
  match d.st with
  | .u => ack s
  | .s | .sf => s |> setDir slot line (clearAgent r.agent d) |> ack
  | _ =>
    if d.owner == r.agent && r.kind != .evF then
      let d' : DirLine :=
        match r.kind, r.keep with
        | .wb, .s => { d with st := .s, sharers := r.agent.toList, owner := none }
        | .wb, .a => d
        | _, _ => { d with st := .u, owner := none }
      let s := match r.kind, r.op with
        | .wb, .write data m => doAcc { slot, line, op := .write data m, poison := r.poison, remote := r.remote } s
        | _, _ => s
      s |> setDir slot line d' |> ack
    else ack s

/-- Take one request on a line that runs no transaction. -/
def takeReq (slot line : Nat) (r : HReq) (s : State) : Bool × State :=
  let d := getDir slot line s
  match r.kind with
  | .wb | .evE | .evF => (true, evictAt slot line d r s)
  | _ => startTxn slot line d r s

/-- Let the queued requests of a line run while no transaction holds it. `fuel` is at least the queue's length. -/
def runQueue (slot line : Nat) : Nat → State → State
  | 0, s => s
  | n + 1, s =>
    let d := getDir slot line s
    match d.txn, d.queue with
    | some _, _ => s
    | none, [] => s
    | none, r :: q =>
      let s := setDir slot line { d with queue := q } s
      (takeReq slot line r s).2 |> runQueue slot line n

/-- The depth of the home's transaction queue over all lines (R168). -/
def queueDepth (s : State) : Nat := (s.coh.dir.map (fun e => e.2.queue.length)).sum

/-- Note the depth a line's queue has reached: hot-line episodes and the window's deepest line (R169). -/
def noteHot (slot line n : Nat) (s : State) : State :=
  let k := lineKey slot line
  let s := if n ≥ 32 && !kmem s.fab.hot k then
      { s with fab := { s.fab with hot := kin s.fab.hot k true } } |> finc FAB_HOTLINE_CNT
    else s
  if n > s.fab.hotDepth then { s with fab := { s.fab with hotDepth := n, hotKey := k } } else s

/-- A line whose queue has emptied ends its episode. -/
def coolHot (slot line : Nat) (s : State) : State :=
  if (getDir slot line s).queue.isEmpty then { s with fab := { s.fab with hot := kin s.fab.hot (lineKey slot line) false } } else s

/-- Queue a request behind the line's transaction. -/
def queueReq (slot line : Nat) (r : HReq) (s : State) : State :=
  let d := getDir slot line s
  let q := d.queue ++ [r]
  s |> setDir slot line { d with queue := q } |> noteHot slot line q.length

/-- A request that allocates an entry in a full set waits for its victim's recall (R122); else it runs. -/
def takeIn (slot line : Nat) (r : HReq) (s : State) : State :=
  let d := getDir slot line s
  let allocates := d.st == .u && r.agent.isSome && (r.kind = .rdS || r.kind = .rdX || r.kind = .upg)
  let set := homeSet slot line
  let es := if allocates && s.coh.dir.length ≥ 16 then setEntries set s else []
  if es.length ≥ 16 then
    let s := { s with coh := { s.coh with victims := s.coh.victims ++ [(set, lineKey slot line, r)] } }
    match victimOf es with
    | some v =>
      s |> finc (DIR_EVENT_CNT 0) |> addFreeNs (DIR_EVENT_CNT 4)
        |> fun s => (takeReq (v.1 / 2 ^ 50) (v.1 % 2 ^ 50) { kind := .drop } s).2
    | none => s
  else (takeReq slot line r s).2

/-- Requests that waited for room in a set: those whose set now has room run. -/
def rerunVictims (s : State) : State :=
  let ready := s.coh.victims.filter (fun v => (setEntries v.1 s).length < 16)
  let s := { s with coh := { s.coh with victims := s.coh.victims.filter (fun v => !ready.contains v) } }
  each ready (fun v s =>
    let slot := v.2.1 / 2 ^ 50; let line := v.2.1 % 2 ^ 50
    if (getDir slot line s).txn.isSome then queueReq slot line v.2.2 s else takeIn slot line v.2.2 s) s

/-- A request reaches the home of a line (R136): queued while a transaction runs, taken otherwise. -/
def homeReq (slot line : Nat) (r : HReq) (s : State) : State :=
  let d := getDir slot line s
  if d.txn.isSome || !d.queue.isEmpty then queueReq slot line r s
  else takeIn slot line r s

/-- Enter the final state and take what is queued. -/
def closeTxn (slot line : Nat) (s : State) : State :=
  let d := getDir slot line s
  match d.txn with
  | none => s
  | some t =>
    let s := setDir slot line { d with st := t.endSt, sharers := t.endSharers, fw := t.endFw, owner := t.endOwner, txn := none } s
    s |> runQueue slot line (d.queue.length + 1) |> coolHot slot line
      |> fun s => if s.coh.victims.isEmpty then s else rerunVictims s

/-- Every snoop has been answered: grant, then wait for Fin or close. -/
def afterSnoops (slot line : Nat) (s : State) : State :=
  let d := getDir slot line s
  match d.txn with
  | none => s
  | some t =>
    if !t.await.isEmpty then s else
    let s := freeTag t.tag s
    if needsFin t.req then
      s |> setDir slot line { d with st := .bFin } |> grant slot line d t
    else
      s |> grant slot line d t |> closeTxn slot line

/-- A response to a snoop. -/
inductive RspKind where
  | ack | fwd | fwdWb | data
  deriving DecidableEq, Repr

/-- Change the transaction of a line. -/
def modTxn (slot line : Nat) (f : Txn → Txn) (s : State) : State :=
  let d := getDir slot line s
  setDir slot line { d with txn := d.txn.map f } s

/-- Take an agent out of the final holders. -/
def notKept (a : Agent) (t : Txn) : Txn :=
  let sh := t.endSharers.filter (· != a)
  let st := match t.endSt with
    | .s => if sh.isEmpty && t.endFw.isNone then .u else .s
    | x => x
  { t with endSharers := sh, endSt := st }

/-- What a host's answer to SnpCur leaves: BIRspE keeps EM, BIRspS gives S{O}, BIRspI gives U (R136). -/
def curByHost (a : Agent) (keeps : Meta) (t : Txn) : Txn :=
  match keeps with
  | .a => t
  | .s => { t with endSt := .s, endSharers := [a], endOwner := none }
  | .i => { t with endSt := .u, endSharers := [], endOwner := none }

/-- A response from an agent to the line's transaction (R136): counted, its data written home as the table says.
`keeps` says what the answering agent keeps: `.i` nothing, `.s` a shared copy, `.a` its ownership. -/
def response (slot line : Nat) (a : Agent) (k : RspKind) (data : Line) (dirty bit : Bool) (keeps : Meta) (s : State) : State :=
  let d := getDir slot line s
  let host := isHostA (some a)
  match d.txn with
  | none => errMsg host slot s
  | some t =>
    match t.await.find? (fun x => x.1 == a) with
    | none => errMsg host slot s
    | some (_, snp) =>
      let hasData := k = .fwdWb || (k = .data && (dirty || snp = .cur))
      let isCur := snp = .cur
      let writeIt := (k = .fwdWb || (k = .data && dirty)) && t.req.kind != .discard && !(isCur && keeps = .a)
      let s := if writeIt then writeHome slot line data bit s else s
      let upd (t : Txn) : Txn :=
        let t := { t with await := t.await.erase (a, snp) }
        let t := if isCur && hasData then { t with rdata := some (data, bit) } else t
        let t := if isCur then (if host then curByHost a keeps t else t)
          else if keeps = .i then notKept a t else t
        t
      s |> modTxn slot line upd |> afterSnoops slot line

/-- Fin from the requester (R136). -/
def onFin (slot line : Nat) (s : State) : State :=
  if (getDir slot line s).st = .bFin then closeTxn slot line s else errMsg false slot s

/-- The line becomes bittern, by a mark of the home itself (R108, R84). -/
def markLine (slot line : Nat) (s : State) : State := doAcc { slot, line, op := .mark, back := true } s

/-- A lost agent or a snoop timeout in the awaited responses of a line: received without data; if the agent was the owner
the line becomes bittern (R135, R136). -/
def awaitLost (slot line : Nat) (a : Agent) (s : State) : State :=
  let d := getDir slot line s
  match d.txn with
  | none => s
  | some t =>
    if !t.await.any (fun x => x.1 == a) then s else
    let s := if d.owner == some a then markLine slot line s else s
    s |> modTxn slot line (fun t =>
          let t := notKept a { t with await := t.await.filter (fun x => x.1 != a), forwarded := false }
          if t.endOwner == some a then { t with endOwner := none, endSt := .u } else t)
      |> afterSnoops slot line

/-- The Agent lost row of R136 for one line. -/
def agentLostAt (slot line : Nat) (a : Agent) (s : State) : State :=
  let d := getDir slot line s
  match d.st with
  | .u => s
  | .s | .sf => setDir slot line (clearAgent (some a) d) s
  | .em =>
    if d.owner == some a then s |> setDir slot line { d with st := .u, owner := none } |> markLine slot line else s
  | .bSnp => awaitLost slot line a s
  | .bFin =>
    match d.txn with
    | some t =>
      if t.req.agent == some a then
        let s := closeTxn slot line s
        let d := getDir slot line s
        match d.st with
        | .em => if d.owner == some a then s |> setDir slot line { d with st := .u, owner := none } |> markLine slot line else s
        | .s | .sf => setDir slot line (clearAgent (some a) d) s
        | _ => s
      else s
    | none => s

/-- An agent is lost: its row applies to every line of the composition homed here (R130, R135). -/
def agentLost (slot : Nat) (a : Agent) (s : State) : State :=
  each (s.coh.dir.filter (fun e => e.1 / 2 ^ 50 == slot)) (fun e => agentLostAt slot (e.1 % 2 ^ 50) a) s

/-- A recall of a line (R134). -/
def recallLine (kind : RKind) (slot line : Nat) (s : State) : State :=
  if (kget? s.coh.dir (lineKey slot line)).isSome then homeReq slot line { kind } s else s

/-- The lines of a pool range that the directory knows. -/
def dirLines (slot pa len : Nat) (s : State) : List Nat :=
  ((s.coh.dir.filter (fun e => e.1 / 2 ^ 50 == slot && pa ≤ e.1 % 2 ^ 50 * 64 && e.1 % 2 ^ 50 * 64 < pa + len)).map
    (fun e => e.1 % 2 ^ 50))

/-- Recall every line of a range. -/
def recallRange (kind : RKind) (slot pa len : Nat) (s : State) : State :=
  each (dirLines slot pa len s) (recallLine kind slot) s

/-- No line of a range runs a transaction. -/
def rangeQuiet (slot pa len : Nat) (s : State) : Bool :=
  (dirLines slot pa len s).all (fun l => (getDir slot l s).txn.isNone)

/-! ### Snoops of HOST_INVAL (R143) -/

/-- The descriptor that a tag's snoop belongs to, for a line. -/
def invalOf (slot line : Nat) (u : TagUse) : Option Nat :=
  match u with
  | .inval d sl l => if sl == slot && l == line then some d else none
  | _ => none

/-- A HOST_INVAL descriptor ends once none of its snoops is outstanding. -/
def invalDone (d : Nat) (s : State) : State :=
  if s.coh.hostSnps.any (fun h => h.inval == some d) || s.fab.tags.any (fun t => match t.2.use with | .inval x _ _ => x == d | _ => false)
  then s
  else modDesc d (fun x => if x.phase == .waiting then { x with phase := .finished } else x) s

/-- A snoop of a HOST_INVAL descriptor failed: it is counted, and the descriptor will end with 0x13. -/
def invalFailed (d : Nat) (s : State) : State :=
  s |> finc (DIR_EVENT_CNT 2) |> fset DIR_STATUS_SNOOP_FAIL_STK 1
    |> modDesc d (fun x => if x.phase == .waiting then { x with status := 0x13 } else x) |> invalDone d

end Sys2Proof.Machine
end

