-- ==== Sys2Proof/Machine/Cache.lean ====
section
/-! DEFINITION. Caching agents (R131): tile agents and the remote-line filter, and the commands that are their loads,
stores, evictions, snoops and grants. -/

namespace Sys2Proof.Machine

/-! ### Copies of tile agents -/

/-- Key of a tile's copy of a line. -/
def copyKey (t slot line : Nat) : Nat := (t * 64 + slot) * 2 ^ 50 + line

/-- A tile's copy. -/
def getCopy (t slot line : Nat) (s : State) : CLine := kgetD s.coh.copies (copyKey t slot line) {}

/-- Write a copy back; I with nothing waiting is not listed. -/
def setCopy (t slot line : Nat) (c : CLine) (s : State) : State :=
  let k := copyKey t slot line
  let m := if c.st == .i && c.pend.isEmpty then kdel s.coh.copies k else kput s.coh.copies k c
  { s with coh := { s.coh with copies := m } }

/-- The filter entry of a line. -/
def getFilt (slot line : Nat) (s : State) : FLine := kgetD s.coh.filter (lineKey slot line) {}

/-- Write a filter entry back. -/
def setFilt (slot line : Nat) (f : FLine) (s : State) : State :=
  let gone := f.up == .i && f.wait.isEmpty
  let k := lineKey slot line
  let m := if gone then kdel s.coh.filter k else kput s.coh.filter k f
  { s with coh := { s.coh with filter := m } } |> showDir slot

/-- What an agent does when snooped (R131). -/
inductive SnpAct where
  | err | ack | fwdF | fwdFplus | fwdM | dataH
  deriving DecidableEq, Repr

/-- The snoop columns of the cache-side table: next state and action. -/
def snoopTable (st : CSt) (k : Snp) : CSt × SnpAct :=
  match k, st with
  | .s, .f => (.s, .fwdF) | .s, .e => (.s, .fwdF) | .s, .m => (.s, .fwdFplus) | .s, .fmA => (.smA, .fwdF)
  | .s, .miA => (.iiA, .fwdFplus) | .s, .eiA => (.iiA, .fwdF) | .s, .fiA => (.iiA, .fwdF)
  | .s, x => (x, .err)
  | .x, .e => (.i, .fwdM) | .x, .m => (.i, .fwdM) | .x, .miA => (.iiA, .fwdM) | .x, .eiA => (.iiA, .fwdM)
  | .x, x => (x, .err)
  | .inv, .i => (.i, .ack) | .inv, .s => (.i, .ack) | .inv, .f => (.i, .ack) | .inv, .e => (.i, .ack)
  | .inv, .m => (.i, .dataH) | .inv, .isD => (.isD, .ack) | .inv, .imD => (.imD, .ack)
  | .inv, .smA => (.imD, .ack) | .inv, .fmA => (.imD, .ack) | .inv, .miA => (.iiA, .dataH)
  | .inv, .eiA => (.iiA, .ack) | .inv, .fiA => (.iiA, .ack) | .inv, .iiA => (.iiA, .ack)
  | .cur, .e => (.e, .dataH) | .cur, .m => (.m, .dataH) | .cur, .miA => (.miA, .dataH) | .cur, .eiA => (.eiA, .dataH)
  | .cur, x => (x, .err)

/-- The state holds dirty data. -/
def isDirtySt (st : CSt) : Bool := st = .m || st = .miA

/-- The state holds readable data. -/
def readable (st : CSt) : Bool := [CSt.s, .f, .e, .m, .smA, .fmA].contains st

/-- The grant columns of the cache-side table; the packet opcode of the grant. -/
def grantTable (st : CSt) (opc : Nat) : Option CSt :=
  match opc, st with
  | 0x40, .isD => some .f
  | 0x41, .isD => some .e
  | 0x42, .imD => some .m
  | 0x43, .smA => some .m
  | 0x43, .fmA => some .m
  | 0x44, .miA => some .i
  | 0x44, .eiA => some .i
  | 0x44, .fiA => some .i
  | 0x44, .iiA => some .i
  | _, _ => none

/-! ### Where a line lives, for a tile -/

/-- The line is homed on this Slosin. -/
def homedHere (slot line : Nat) (s : State) : Bool :=
  match compAt slot s with
  | some c => match homeOf c (line * 64) s with | .here _ => true | _ => false
  | none => false

/-- The node a line is homed on. -/
def homeNode (slot line : Nat) (s : State) : Option Nat :=
  match compAt slot s with
  | some c => match homeOf c (line * 64) s with | .member _ n => some n | _ => none
  | none => none

/-- The composition runs software coherence. -/
def isSoftware (slot : Nat) (s : State) : Bool := (compAt slot s).any (·.software)

/-- The tile is awake or gating. -/
def tileOn (t : Nat) (s : State) : Bool := fget (TIL_STATE_POWER t) s ≥ 2

/-- A tile sends a request to its directory: an output, which arrives as its own command. -/
def tileSends (t opc slot line : Nat) (c : CLine) (s : State) : State :=
  emit (.toHome (.tile (Fin.ofNat 32 t)) opc slot line c.data (isDirtySt c.st) c.bittern) s

/-! ### The filter toward the home (R117) -/

/-- Send a request of the filter to the home. -/
def filterSends (opc slot line : Nat) (st : CSt) (s : State) : State :=
  match homeNode slot line s with
  | none => s
  | some n =>
    let f := getFilt slot line s
    let body := if opc = 0x04 then lineSlots ((f.data.map (·.1)).getD 0) else []
    let bit := (f.data.map (·.2)).getD false
    let (tag, s) := sendReq opc n (cmpIdOf slot s) (line * 64) 0 body (opc == 0x04 && bit) (.filter slot line) s
    setFilt slot line { f with up := st, tag } s

/-- The tiles that hold a remote line here. -/
def filterTiles (f : FLine) : List Nat :=
  (f.dir.sharers ++ f.dir.fw.toList ++ f.dir.owner.toList).filterMap (fun a => match a with | .tile t => some t | _ => none)

/-- The current data of a remote line: its owner's copy, else any tile's, else what the entry keeps. -/
def filterData (slot line : Nat) (f : FLine) (s : State) : Option (Line × Bool × Bool) :=
  let cs := (filterTiles f).map (fun t => getCopy t slot line s)
  match cs.find? (fun c => isDirtySt c.st) with
  | some c => some (c.data, c.bittern, true)
  | none =>
    match cs.find? (fun c => readable c.st || c.st = .eiA || c.st = .fiA) with
    | some c => some (c.data, c.bittern, f.dirty)
    | none => f.data.map (fun d => (d.1, d.2, f.dirty))

/-- The tile switch answers a snoop of every tile but one at once (R116): each copy follows the cache-side table. -/
def snoopTiles (slot line : Nat) (k : Snp) (skip : Option Nat) (s : State) : State :=
  let f := getFilt slot line s
  each ((filterTiles f).filter (fun t => some t != skip)) (fun t s =>
    let c := getCopy t slot line s
    let (st, act) := snoopTable c.st k
    let stale := c.st = .i && k = .inv
    let st := if act = .err then c.st else st
    s |> setCopy t slot line { c with st } |> onlyIf stale (finc (DIR_EVENT_CNT 1))) s

/-- Grant a remote line to a tile of this Slosin: Data_F, Data_E, Data_M or Cmp. -/
def filterGrant (slot line t : Nat) (k : RKind) (s : State) : State :=
  let f := getFilt slot line s
  match filterData slot line f s with
  | none => s
  | some (d, b, dirty) =>
    match k with
    | .rdS =>
      let alone := (filterTiles f).all (· == t)
      let ex := alone && (f.up = .e || f.up = .m)
      let s := snoopTiles slot line .s (some t) s
      let sh := (filterTiles f).filter (· != t) |>.map Agent.tile
      let dir : DirLine := if ex then { st := .em, owner := some (.tile t) } else { st := .sf, sharers := sh, fw := some (.tile t) }
      s |> setFilt slot line { f with dir, data := some (d, b), dirty }
        |> emit (.toTile t (if ex then 0x41 else 0x40) slot line .home d b)
    | _ =>
      let had := (filterTiles f).contains t && readable (getCopy t slot line s).st
      let s := snoopTiles slot line .inv (some t) s
      s |> setFilt slot line { f with up := .m, dir := { st := .em, owner := some (.tile t) }, data := some (d, b), dirty }
        |> emit (.toTile t (if had then 0x43 else 0x42) slot line .home d b)

/-- The filter's state toward the home permits a request of a tile (R117). -/
def filterPermits (f : FLine) (k : RKind) : Bool :=
  match k with
  | .rdS => f.up = .s || f.up = .f || f.up = .e || f.up = .m
  | _ => f.up = .e || f.up = .m

/-- The filter's state toward the home is stable. -/
def upStable (f : FLine) : Bool := [CSt.i, .s, .f, .e, .m].contains f.up

/-- A tile asks the filter for a remote line: served inside when the filter's state permits it, else the home is asked. -/
def filterReq (slot line t : Nat) (k : RKind) (s : State) : State :=
  let f := getFilt slot line s
  if !upStable f then setFilt slot line { f with wait := f.wait ++ [(t, k)] } s
  else if filterPermits f k && (filterData slot line f s).isSome then filterGrant slot line t k s
  else
    let s := setFilt slot line { f with wait := f.wait ++ [(t, k)], up := if f.up = .i then .isD else f.up } s
    match k, f.up with
    | .rdS, _ => filterSends 0x01 slot line .isD s
    | _, .s => filterSends 0x03 slot line .smA s
    | _, .f => filterSends 0x03 slot line .fmA s
    | _, _ => filterSends 0x02 slot line .imD s

/-- Serve the waiting requests of a filter line, oldest first, until one needs the home again. -/
def filterServe (slot line : Nat) : Nat → State → State
  | 0, s => s
  | n + 1, s =>
    let f := getFilt slot line s
    match f.wait with
    | [] => s
    | (t, k) :: r =>
      if !upStable f then s
      else s |> setFilt slot line { f with wait := r } |> filterReq slot line t k |> filterServe slot line n

/-- The filter gives a line up (R122): Wb, EvE or EvF to the home, a Shared line silently. -/
def filterEvict (slot line : Nat) (s : State) : State :=
  let s := snoopTiles slot line .inv none s
  let f := getFilt slot line s
  match f.up with
  | .m => filterSends 0x04 slot line .miA s
  | .e => filterSends (if f.dirty then 0x04 else 0x05) slot line (if f.dirty then .miA else .eiA) s
  | .f => filterSends 0x06 slot line .fiA s
  | .s => setFilt slot line { f with up := .i } s
  | _ => s

/-- A tile gives up a remote line: its data is kept in the entry; the entry goes to the home when no tile holds the line. -/
def filterTileEvict (slot line t : Nat) (m : Option (Line × Bool)) (s : State) : State :=
  let f := getFilt slot line s
  let d := clearAgent (some (.tile t)) { f.dir with owner := if f.dir.owner == some (.tile t) then none else f.dir.owner }
  let f := { f with dir := d, data := match m with | some x => some x | none => f.data, dirty := f.dirty || m.isSome }
  let s := s |> setFilt slot line f |> emit (.toTile t 0x44 slot line .home 0 false)
  if (filterTiles f).isEmpty && upStable f then filterEvict slot line s else s

/-! ### Loads, stores and evictions (R131) -/

/-- Lines that a miss fetches ahead (R76): only beyond the near store of this Slosin. -/
def readahead (slot line : Nat) (s : State) : Nat :=
  match compAt slot s with
  | none => 0
  | some c =>
    let beyond : Bool := match homeOf c (line * 64) s with
      | .here (.at_ p) => p ≥ farBase
      | .member .. => true
      | _ => false
    if beyond == true then
      match splitPa c (line * 64) with
      | some (_, l) => match kgetD s.mem.advice (heatKey slot l) 0 with | 1 => 3 | 2 => 0 | _ => 1
      | none => 0
    else 0

/-- One tile load. -/
def tileLoad (t slot line : Nat) (s : State) : State :=
  let c := getCopy t slot line s
  if c.st = .i then
    let opc := if isSoftware slot s then 0x07 else 0x01
    s |> setCopy t slot line { c with st := .isD } |> tileSends t opc slot line c
  else s

/-- CACHE_LOAD. -/
def cacheLoad (a : CAgent) (slot line : Nat) (s : State) : State :=
  match a with
  | .tile t =>
    if !tileOn t s then s else
    let miss := (getCopy t slot line s).st = .i
    let s := tileLoad t slot line s
    if miss then each ((List.range (readahead slot line s)).map (fun i => line + 1 + i)) (tileLoad t slot) s else s
  | .filter =>
    let f := getFilt slot line s
    if f.up = .i then filterSends 0x01 slot line .isD s else s

/-- Write into a copy. -/
def storeInto (c : CLine) (d : Line) (m : BitVec 64) (software : Bool) : CLine :=
  { c with data := overlay c.data d m, dirty := if software then c.dirty ||| m else c.dirty }

/-- One tile store. -/
def tileStore (t slot line : Nat) (d : Line) (m : BitVec 64) (s : State) : State :=
  let c := getCopy t slot line s
  let pend := { c with pend := c.pend ++ [(d, m)] }
  if isSoftware slot s then
    if readable c.st then setCopy t slot line (storeInto c d m true) s
    else if c.st = .i then s |> setCopy t slot line { pend with st := .isD } |> tileSends t 0x07 slot line c
    else setCopy t slot line pend s
  else match c.st with
    | .e | .m => setCopy t slot line { storeInto c d m false with st := .m } s
    | .i => s |> setCopy t slot line { pend with st := .imD } |> tileSends t 0x02 slot line c
    | .s => s |> setCopy t slot line { pend with st := .smA } |> tileSends t 0x03 slot line c
    | .f => s |> setCopy t slot line { pend with st := .fmA } |> tileSends t 0x03 slot line c
    | _ => setCopy t slot line pend s

/-- CACHE_STORE. -/
def cacheStore (a : CAgent) (slot line : Nat) (d : Line) (m : BitVec 64) (s : State) : State :=
  match a with
  | .tile t => if tileOn t s then tileStore t slot line d m s else s
  | .filter =>
    let f := getFilt slot line s
    let put (f : FLine) : FLine :=
      { f with up := .m, dirty := true, data := some (overlay ((f.data.map (·.1)).getD 0) d m, (f.data.map (·.2)).getD false) }
    match f.up with
    | .e | .m => setFilt slot line (put f) s
    | .i => filterSends 0x02 slot line .imD s
    | .s => filterSends 0x03 slot line .smA s
    | .f => filterSends 0x03 slot line .fmA s
    | _ => s

/-- The dirty bytes of a copy under software coherence go home as WrPtl (R142). -/
def writeBackDirty (t slot line : Nat) (s : State) : State :=
  let c := getCopy t slot line s
  if c.dirty = 0 then s else
  let s := setCopy t slot line { c with dirty := 0 } s
  if homedHere slot line s then doAcc { slot, line, op := .write c.data c.dirty, poison := c.bittern } s
  else match homeNode slot line s with
    | some n =>
      (sendReq 0x09 n (cmpIdOf slot s) (line * 64) c.dirty.toNat (lineSlots c.data) c.bittern (.tileOp t slot line 4) s).2
    | none => s

/-- CACHE_EVICT. -/
def cacheEvict (a : CAgent) (slot line : Nat) (s : State) : State :=
  match a with
  | .tile t =>
    let c := getCopy t slot line s
    if isSoftware slot s then
      if c.st = .s then s |> writeBackDirty t slot line |> setCopy t slot line { c with st := .i, dirty := 0 } else s
    else match c.st with
      | .s => setCopy t slot line { c with st := .i } s
      | .f => s |> setCopy t slot line { c with st := .fiA } |> tileSends t 0x06 slot line c
      | .e => s |> setCopy t slot line { c with st := .eiA } |> tileSends t 0x05 slot line c
      | .m => s |> setCopy t slot line { c with st := .miA } |> tileSends t 0x04 slot line c
      | _ => s
  | .filter => filterEvict slot line s

/-! ### Snoops -/

/-- Send data to a snoop's target. -/
def dataToTarget (opc slot line : Nat) (tgt : Tgt) (d : Line) (b : Bool) (s : State) : State :=
  match tgt with
  | .home => s
  | .tile t => emit (.toTile t opc slot line .home d b) s
  | .node n tag _ =>
    send opc n.toNat (cmpIdOf slot s) tag.toNat (line * 64) 0 (lineSlots d) b s

/-- Send a snoop's answer to the home: from a tile to the directory of this Slosin, from the filter in a packet. -/
def answerSnoop (a : CAgent) (h : Option Hdr) (opc slot line : Nat) (d : Line) (dirty b : Bool) (s : State) : State :=
  match a, h with
  | .filter, some h =>
    send opc h.src.toNat h.cmpId.toNat h.tag.toNat 0 0 (if opc = 0x47 || opc = 0x48 then lineSlots d else []) b s
  | a, _ => emit (.toHome a opc slot line d dirty b) s

/-- Carry out the action of the cache-side table. -/
def doAct (act : SnpAct) (a : CAgent) (h : Option Hdr) (slot line : Nat) (tgt : Tgt) (d : Line) (dirty b : Bool)
    (s : State) : State :=
  let ans := fun opc => answerSnoop a h opc slot line d dirty b
  match act with
  | .err => errMsg false slot s
  | .ack => ans 0x45 s
  | .fwdF => if tgt = .home then ans 0x48 s else s |> dataToTarget 0x40 slot line tgt d b |> ans 0x46
  | .fwdFplus => if tgt = .home then ans 0x48 s else s |> dataToTarget 0x40 slot line tgt d b |> ans 0x47
  | .fwdM => if tgt = .home then ans 0x48 s else s |> dataToTarget 0x42 slot line tgt d b |> ans 0x46
  | .dataH => ans 0x48 s

/-- The target that a Forward packet names (R155). -/
def packetTarget (h : Hdr) : Tgt :=
  let o := h.oparg.toNat
  if bitsOf o 0 12 = h.src.toNat then .home
  else .node (BitVec.ofNat 12 o) (BitVec.ofNat 16 (o / 2 ^ 16)) (BitVec.ofNat 16 (o / 2 ^ 32))

/-- A snoop reaches a tile agent. -/
def tileSnoop (t slot line : Nat) (k : Snp) (tgt : Tgt) (s : State) : State :=
  let c := getCopy t slot line s
  let (st, act) := snoopTable c.st k
  let stale := k = .inv && c.st = .i
  s |> onlyIf (act != .err) (setCopy t slot line { c with st })
    |> onlyIf stale (finc (DIR_EVENT_CNT 1))
    |> doAct act (.tile (Fin.ofNat 32 t)) none slot line tgt c.data (isDirtySt c.st) c.bittern

/-- A snoop reaches the filter: its tiles are snooped, merged and answered for (R116, R117). -/
def filterSnoop (h : Option Hdr) (slot line : Nat) (k : Snp) (tgt : Tgt) (s : State) : State :=
  let f := getFilt slot line s
  let tileDirty := (filterTiles f).any (fun t => isDirtySt (getCopy t slot line s).st)
  let up := if f.up = .e && (tileDirty || f.dirty) then .m else f.up
  let (d, b, _) := (filterData slot line f s).getD (0, false, false)
  let (st, act) := snoopTable up k
  if act = .err then errMsg false slot s else
  let stale := k = .inv && up = .i
  let tileSnp := if k == .x then Snp.inv else k
  let s := if k = .cur then s else snoopTiles slot line tileSnp none s
  let gone := st = .i || st = .iiA
  let keptDir : DirLine := { st := .s, sharers := (filterTiles f).map Agent.tile }
  let f' := { f with up := st, data := (if gone then none else some (d, b)),
                     dirty := (!gone && up == .m && k == .cur && f.dirty),
                     dir := (if gone then {} else if k == .s then keptDir else f.dir) }
  s |> setFilt slot line f' |> onlyIf stale (finc (DIR_EVENT_CNT 1))
    |> doAct act .filter h slot line tgt d (isDirtySt up) b

/-- A snoop for a host of this member, relayed by the home (R129). -/
def relaySnoop (h : Hdr) (slot line : Nat) (k : Snp) (s : State) : State :=
  match entryOfAgent slot (bitsOf h.oparg.toNat 48 8) s with
  | some (p, e) => biSnoop { port := p, entry := e, slot, line, snp := k, relay := some (h.src.toNat, h.tag.toNat) } s
  | none => s

/-- The slot of a packet's composition. -/
def slotOfHdr (h : Hdr) (s : State) : Option Nat := (compById h.cmpId.toNat s).map (·.slot)

/-- A snoop command (SNP_S, SNP_X, SNP_INV, SNP_CUR): from the home of this Slosin to a tile, or in a Forward packet to
the filter or to a relayed host. -/
def snoopCmd (opc : Nat) (k : Snp) (m : AgentMsg) (s : State) : State :=
  match m.via with
  | some h =>
    onHdr opc h (fun s =>
      match slotOfHdr h s with
      | none => s
      | some slot =>
        let line := h.pa.toNat / 64
        if bitAt h.oparg.toNat 56 then relaySnoop h slot line k s
        else filterSnoop (some h) slot line k (packetTarget h) s) s
  | none =>
    match m.agent with
    | .tile t => tileSnoop t m.slot (m.pa.toNat / 64) k m.target s
    | .filter => filterSnoop none m.slot (m.pa.toNat / 64) k m.target s

/-! ### Grants -/

/-- Stores that waited go on once the line is stable again. -/
def replayPend (t slot line : Nat) (s : State) : State :=
  let c := getCopy t slot line s
  each c.pend (fun x => tileStore t slot line x.1 x.2) (setCopy t slot line { c with pend := [] } s)

/-- A grant reaches a tile agent: fill and Fin to the directory of this Slosin (R131). -/
def tileGrant (opc t slot line : Nat) (d : Line) (b : Bool) (s : State) : State :=
  let c := getCopy t slot line s
  match grantTable c.st opc with
  | none => errMsg false slot s
  | some st =>
    let fills := opc ≤ 0x42
    let c' := { c with st, data := (if fills then d else c.data), bittern := (if fills then b else c.bittern) }
    let s := setCopy t slot line c' s
    let s := if opc = 0x44 then s else emit (.toHome (.tile (Fin.ofNat 32 t)) 0x49 slot line 0 false false) s
    if opc = 0x44 && !(c.pend.isEmpty) then replayPend t slot line s
    else if st = .m || st = .e || st = .f then replayPend t slot line s
    else s

/-- A grant reaches the filter: fill and Fin to the home, then the tiles that waited are served. -/
def filterGrantIn (opc slot line : Nat) (d : Line) (b : Bool) (s : State) : State :=
  let f := getFilt slot line s
  match grantTable f.up opc with
  | none => errMsg false slot s
  | some st =>
    let fills := opc ≤ 0x42
    let f' := { f with up := st, tag := 0, data := (if fills then some (d, b) else if st == .i then none else f.data),
                       dirty := (if st == .i then false else f.dirty) }
    let s := freeTag f.tag s
    let s := if opc = 0x44 then s else
      match homeNode slot line s with
      | some n => send 0x49 n (cmpIdOf slot s) f.tag 0 0 [] false s
      | none => s
    s |> setFilt slot line f' |> filterServe slot line (f.wait.length + 1)

/-- A response for a relayed host request completes it at its port (R129): Data_F as Cmp-S, Data_E and Cmp as Cmp-E,
others as Cmp. -/
def relayDone (opc port entry hpa kind tag : Nat) (d : Line) (b : Bool) (s : State) : State :=
  let slot := fget (PRT_AGENT_SLOT port entry) s
  let agent := fget (PRT_AGENT_AGENT port entry) s
  let base := ((kget? s.prt.hdm (port * 16 + entry)).map (·.base)).getD 0
  let ownKey := (slot * 256 + agent) * 2 ^ 50 + (hpa - base) / 64
  let k := match opc with | 0x40 => 0 | 0x41 => 1 | 0x43 => 1 | 0x4C => 2 | _ => kind
  let s := freeTag tag s
  let s := if k = 1 then { s with coh := { s.coh with owned := kin s.coh.owned ownKey true } }
    else if opc = 0x44 then { s with coh := { s.coh with owned := kin s.coh.owned ownKey false } } else s
  hostComplete port entry hpa k d b s

/-- A grant command (DATA_F, DATA_E, DATA_M, CMP, WB_ACK): to a tile; or in a Response packet, matched by its tag to the
filter's request, to a tile's request of a line homed here, or to a relayed host request. -/
def grantCmd (opc : Nat) (m : AgentMsg) (s : State) : State :=
  match m.via with
  | some h =>
    let body := (s.fab.inbox.find? (fun k => k.hdr == h)).map (·.body)
    let d := match body with | some x => slotsLine x | none => m.data
    onHdr opc h (fun s =>
      match kget? s.fab.tags h.tag.toNat with
      | some ⟨_, .filter slot line, _⟩ => filterGrantIn opc slot line d h.bittern s
      | some ⟨_, .home slot line, _⟩ =>
        match (getDir slot line s).txn with
        | some t => match t.req.agent with
          | some (.tile n) => tileGrant opc n slot line d h.bittern s
          | _ => s
        | none => s
      | some ⟨_, .relay p e hpa k, _⟩ => relayDone opc p e hpa k h.tag.toNat d h.bittern s
      | _ => s) s
  | none =>
    match m.agent with
    | .tile t =>
      if (match m.inc with | some i => i.toNat != fget (TIL_STATE_INCARNATION t) s | none => false) then
        finc (TIL_STALE_DROP_CNT t) s
      else tileGrant opc t m.slot (m.pa.toNat / 64) m.data m.bittern s
    | .filter => filterGrantIn opc m.slot (m.pa.toNat / 64) m.data m.bittern s

/-! ### Requests and responses at the home -/

/-- Requests of a composition under software coherence go to the memory at once and record nothing (R141). -/
def softReq (slot line : Nat) (r : HReq) (s : State) : State :=
  match r.kind with
  | .rdS => replyRead slot line r (hostGrant 0 (withOpc 0x4C r.reply)) s
  | .rdX => replyRead slot line r (hostGrant 1 (withOpc 0x4C r.reply)) s
  | .upg => sendShort 0x43 slot line r.reply s
  | .rdCur => replyRead slot line r (hostGrant 2 (withOpc 0x4C r.reply)) s
  | .write => doAcc { slot, line, op := r.op, poison := r.poison, reply := hostGrant 3 (withOpc 0x4A r.reply), remote := r.remote } s
  | .atom => doAcc { slot, line, op := r.op, reply := withOpc 0x4B r.reply, remote := r.remote } s
  | .wb =>
    let op := r.op
    s |> doAcc { slot, line, op, poison := r.poison, remote := r.remote } |> sendShort 0x44 slot line r.reply
  | .evE | .evF => sendShort 0x44 slot line r.reply s
  | _ => s

/-- Submit a request at the home: through the directory, or past it under software coherence. -/
def submit (slot line : Nat) (r : HReq) (s : State) : State :=
  if isSoftware slot s then softReq slot line r s else homeReq slot line r s

/-- ECC finds something in the near line a request reads. -/
def meetEccAt (slot line : Nat) (e : Ecc) (s : State) : State :=
  match (compAt slot s).bind (fun c => physOf c (line * 64) s) with
  | some p => meetEcc slot p e s
  | none => s

/-- The write a request carries. -/
def opOf (opc : Nat) (d : Line) (oparg : BitVec 64) : AccOp :=
  match opc with
  | 0x04 | 0x08 => .write d (BitVec.allOnes 64)
  | 0x09 => .write d oparg
  | 0x0A => .atomic oparg (BitVec.ofNat 64 d.toNat) (BitVec.ofNat 64 (d.toNat / 2 ^ 64))
  | _ => .read

/-- The kind of a Request opcode. -/
def kindOf (opc : Nat) : RKind :=
  match opc with
  | 0x01 => .rdS | 0x02 => .rdX | 0x03 => .upg | 0x04 => .wb | 0x05 => .evE | 0x06 => .evF
  | 0x07 => .rdCur | 0x0A => .atom | _ => .write

/-- A Request packet at its home (R61, R129, R166): refused with a Nak when the composition has failed or the address is
not backed here; a relayed host is the requester and its route is recorded. -/
def packetReq (opc : Nat) (h : Hdr) (d : Line) (oparg : BitVec 64) (e : Ecc) (s : State) : State :=
  match compById h.cmpId.toNat s with
  | none => sendNak h 4 s
  | some c =>
    if c.state = .failed then sendNak h 5 s else
    let line := h.pa.toNat / 64
    match homeOf c h.pa.toNat s with
    | .here (.at_ _) =>
      let s := meetEccAt c.slot line e s
      let o := h.oparg.toNat
      let isHost := bitAt o 8 && opc ≤ 0x07
      let agent : Option Agent :=
        if isHost then some (.host (o % 256))
        else if opc ≤ 0x06 then (memberIndex c h.src.toNat).map Agent.peer else none
      let s := if isHost then
          { s with coh := { s.coh with routes := kput s.coh.routes (c.slot * 256 + o % 256) h.src.toNat } } else s
      if opc ≤ 0x06 && agent.isNone then s |> finc (CMP_UNBACKED_CNT c.slot) |> sendNak h 4 else
      submit c.slot line { kind := kindOf opc, agent, reply := .peer h.src.toNat h.tag.toNat opc,
                           op := opOf opc d oparg, poison := h.bittern, remote := true } s
    | .here .unallotted => s
    | _ => s |> finc (CMP_UNBACKED_CNT c.slot) |> sendNak h 4

/-- A tile's request of a line homed elsewhere that takes no copy goes to the home as a packet. -/
def tileRemote (opc t slot line : Nat) (m : HomeMsg) (s : State) : State :=
  match homeNode slot line s with
  | none => finc (CMP_UNBACKED_CNT slot) s
  | some n =>
    let k := match opc with | 0x07 => 3 | 0x0A => 5 | _ => 4
    let body := match opc with
      | 0x07 => []
      | 0x0A => [BitVec.ofNat 128 m.data.toNat]
      | _ => lineSlots m.data
    (sendReq opc n (cmpIdOf slot s) (line * 64) (if opc = 0x09 || opc = 0x0A then m.oparg.toNat else 0) body m.bittern
      (.tileOp t slot line k) s).2

/-- A request command (RD_S to ATOM): from a tile to the home here or to the filter, or in a packet. -/
def requestCmd (opc : Nat) (m : HomeMsg) (s : State) : State :=
  match m.via with
  | .packet h =>
    let body := (s.fab.inbox.find? (fun k => k.hdr == h)).map (·.body)
    let d := match body with | some x => BitVec.ofNat 512 (slotsNat x) | none => m.data
    onHdr opc h (fun s => packetReq opc h d h.oparg m.ecc s) s
  | .tile t =>
    let slot := m.slot.val
    let line := m.pa.toNat / 64
    if homedHere slot line s then
      let s := meetEccAt slot line m.ecc s
      let agent : Option Agent := if opc ≤ 0x06 then some (.tile t) else none
      submit slot line { kind := kindOf opc, agent, reply := .tile t 0, op := opOf opc m.data m.oparg, poison := m.bittern } s
    else match opc with
      | 0x01 => filterReq slot line t .rdS s
      | 0x02 => filterReq slot line t .rdX s
      | 0x03 => filterReq slot line t .upg s
      | 0x04 => filterTileEvict slot line t (some (m.data, m.bittern)) s
      | 0x05 => filterTileEvict slot line t none s
      | 0x06 => filterTileEvict slot line t none s
      | _ => tileRemote opc t slot line m s

/-- The agent that a Response packet's source stands for in a transaction: the peer, or the host it relays. -/
def rspAgent (slot line src : Nat) (s : State) : Agent :=
  let m := ((compAt slot s).bind (fun c => memberIndex c src)).getD 0
  match (getDir slot line s).txn with
  | some t =>
    if t.await.any (fun x => x.1 == .peer m) then .peer m
    else match t.await.find? (fun x => match x.1 with
        | .host a => kget? s.coh.routes (slot * 256 + a) == some src
        | _ => false) with
      | some (a, _) => a
      | none => .peer m
  | none => .peer m

/-- The snoop that an agent of a transaction has yet to answer. -/
def awaitedSnp (slot line : Nat) (a : Agent) (s : State) : Option Snp :=
  ((getDir slot line s).txn.bind (fun t => t.await.find? (fun x => x.1 == a))).map (·.2)

/-- What an agent keeps after answering a snoop. -/
def keptAfter (host : Bool) (keeps : Meta) (k : Option Snp) : Meta :=
  match k with
  | some .cur => if host then keeps else .a
  | some .s => keeps
  | _ => .i

/-- A response command (INV_ACK, RSP_FWD, RSP_FWD_WB, RSP_DATA): from a tile, or in a packet matched by its tag. -/
def responseCmd (opc : Nat) (k : RspKind) (m : HomeRsp) (s : State) : State :=
  let keeps : Meta := match k with | .ack => .i | .data => .s | _ => .s
  match m.via with
  | .packet h =>
    let body := (s.fab.inbox.find? (fun k => k.hdr == h)).map (·.body)
    let d := match body with | some x => slotsLine x | none => m.data
    onHdr opc h (fun s =>
      match kget? s.fab.tags h.tag.toNat with
      | some ⟨_, .home slot line, _⟩ =>
        let a := rspAgent slot line h.src.toNat s
        -- a packet does not tell BIRspE from BIRspS after SnpCur: the home keeps the owner (assumption 13)
        let keeps := keptAfter (isHostA (some a)) (if k = .fwd then .a else keeps) (awaitedSnp slot line a s)
        response slot line a k d m.dirty h.bittern keeps s
      | some ⟨_, .inval d _ _, _⟩ => s |> freeTag h.tag.toNat |> invalDone d
      | _ =>
        match slotOfHdr h s with
        | some slot => errMsg false slot s
        | none => s) s
  | .tile t =>
    let slot := m.slot.val
    let line := m.pa.toNat / 64
    if homedHere slot line s then
      let a := Agent.tile t
      let keeps := keptAfter false keeps (awaitedSnp slot line a s)
      response slot line a k m.data m.dirty m.bittern keeps s
    else s

/-- FIN: from a tile of this Slosin, or from a peer in a packet, matched to the transaction it answers. -/
def finCmd (m : HomeRsp) (s : State) : State :=
  match m.via with
  | .packet h =>
    onHdr 0x49 h (fun s =>
      match slotOfHdr h s with
      | none => s
      | some slot =>
        match s.coh.dir.find? (fun e => e.1 / 2 ^ 50 == slot && (match e.2.txn with
            | some t => t.req.reply == .peer h.src.toNat h.tag.toNat (match t.req.reply with | .peer _ _ o => o | _ => 0)
            | none => false)) with
        | some e => onFin slot (e.1 % 2 ^ 50) s
        | none => errMsg false slot s) s
  | .tile _ =>
    let slot := m.slot.val
    let line := m.pa.toNat / 64
    if homedHere slot line s then onFin slot line s else s

/-! ### The commands -/

/-- CACHE_LOAD (R131, R76). -/
def execCacheLoad (a : CAgent) (slot : Fin 64) (pa : BitVec 56) (s : State) := ok (cacheLoad a slot (pa.toNat / 64) s)
/-- CACHE_STORE (R131, R142). -/
def execCacheStore (a : CAgent) (slot : Fin 64) (pa : BitVec 56) (d : Line) (m : BitVec 64) (s : State) :=
  ok (cacheStore a slot (pa.toNat / 64) d m s)
/-- CACHE_EVICT (R131). -/
def execCacheEvict (a : CAgent) (slot : Fin 64) (pa : BitVec 56) (s : State) := ok (cacheEvict a slot (pa.toNat / 64) s)
/-- RD_S (R136). -/
def execRdS (m : HomeMsg) (s : State) := ok (requestCmd 0x01 m s)
/-- RD_X (R136). -/
def execRdX (m : HomeMsg) (s : State) := ok (requestCmd 0x02 m s)
/-- UPG (R136). -/
def execUpg (m : HomeMsg) (s : State) := ok (requestCmd 0x03 m s)
/-- WB (R136). -/
def execWb (m : HomeMsg) (s : State) := ok (requestCmd 0x04 m s)
/-- EV_E (R136). -/
def execEvE (m : HomeMsg) (s : State) := ok (requestCmd 0x05 m s)
/-- EV_F (R136). -/
def execEvF (m : HomeMsg) (s : State) := ok (requestCmd 0x06 m s)
/-- RD_CUR (R136). -/
def execRdCur (m : HomeMsg) (s : State) := ok (requestCmd 0x07 m s)
/-- WR_FULL (R136). -/
def execWrFull (m : HomeMsg) (s : State) := ok (requestCmd 0x08 m s)
/-- WR_PTL (R136). -/
def execWrPtl (m : HomeMsg) (s : State) := ok (requestCmd 0x09 m s)
/-- ATOM (R165): a control word that R165 does not define makes the packet malformed; from a tile it has no effect. -/
def execAtom (m : HomeMsg) (s : State) :=
  match m.via with
  | .packet _ => ok (requestCmd 0x0A m s)
  | .tile _ => ok (if atomBad m.oparg then s else requestCmd 0x0A m s)
/-- SNP_S (R131). -/
def execSnpS (m : AgentMsg) (s : State) := ok (snoopCmd 0x20 .s m s)
/-- SNP_X (R131). -/
def execSnpX (m : AgentMsg) (s : State) := ok (snoopCmd 0x21 .x m s)
/-- SNP_INV (R131). -/
def execSnpInv (m : AgentMsg) (s : State) := ok (snoopCmd 0x22 .inv m s)
/-- SNP_CUR (R131). -/
def execSnpCur (m : AgentMsg) (s : State) := ok (snoopCmd 0x23 .cur m s)
/-- DATA_F (R131). -/
def execDataF (m : AgentMsg) (s : State) := ok (grantCmd 0x40 m s)
/-- DATA_E (R131). -/
def execDataE (m : AgentMsg) (s : State) := ok (grantCmd 0x41 m s)
/-- DATA_M (R131). -/
def execDataM (m : AgentMsg) (s : State) := ok (grantCmd 0x42 m s)
/-- CMP (R131). -/
def execCmp (m : AgentMsg) (s : State) := ok (grantCmd 0x43 m s)
/-- WB_ACK (R131). -/
def execWbAck (m : AgentMsg) (s : State) := ok (grantCmd 0x44 m s)
/-- INV_ACK (R136). -/
def execInvAck (m : HomeRsp) (s : State) := ok (responseCmd 0x45 .ack m s)
/-- RSP_FWD (R136). -/
def execRspFwd (m : HomeRsp) (s : State) := ok (responseCmd 0x46 .fwd m s)
/-- RSP_FWD_WB (R136). -/
def execRspFwdWb (m : HomeRsp) (s : State) := ok (responseCmd 0x47 .fwdWb m s)
/-- RSP_DATA (R136). -/
def execRspData (m : HomeRsp) (s : State) := ok (responseCmd 0x48 .data m s)
/-- FIN (R136). -/
def execFin (m : HomeRsp) (s : State) := ok (finCmd m s)

/-- The snoops of HOST_INVAL for a line fail: those to agents here, and those to agents of other members. -/
def invalTimeout (slot line : Nat) (s : State) : State :=
  let hit (h : HostSnp) : Bool := h.slot == slot && h.line == line && h.inval.isSome
  let ds := (s.coh.hostSnps.filter hit).filterMap (·.inval) ++ s.fab.tags.filterMap (fun t => invalOf slot line t.2.use)
  let s := { s with
    coh := { s.coh with hostSnps := s.coh.hostSnps.filter (fun h => !hit h) },
    fab := { s.fab with tags := s.fab.tags.filter (fun t => (invalOf slot line t.2.use).isNone) } }
  each ds invalFailed s

/-- SNOOP_TIMEOUT (R135, R143): every host and peer snoop of the line still unanswered fails. -/
def execSnoopTimeout (slot : Fin 64) (pa : BitVec 56) (s : State) :=
  let line := pa.toNat / 64
  let late := match (getDir slot line s).txn with
    | some t => (t.await.map (·.1)).filter (fun a => match a with | .tile _ => false | _ => true)
    | none => []
  ok (each late (fun a s =>
    s |> finc (DIR_EVENT_CNT 2) |> fset DIR_STATUS_SNOOP_FAIL_STK 1
      |> (fun s => { s with coh := { s.coh with hostSnps := s.coh.hostSnps.filter (fun h =>
            !(h.slot == slot.val && h.line == line && h.relay.isNone && h.inval.isNone)) } })
      |> awaitLost slot line a) s |> invalTimeout slot line)

/-- TILE_SNOOP_TIMEOUT (R135): a fatal composition error. -/
def execTileSnoopTimeout (slot : Fin 64) (pa : BitVec 56) (t : Fin 32) (s : State) :=
  let due : Bool := match (getDir slot (pa.toNat / 64) s).txn with
    | some x => x.await.any (fun a => a.1 == .tile t)
    | none => false
  ok (onlyIf due (fatalComp slot) s)

/-- AGENT_DOWN (R130): the Agent lost row for every line that names the host agent. -/
def execAgentDown (h : Hdr) (s : State) :=
  ok (onHdr 0x89 h (fun s =>
    match slotOfHdr h s with
    | some slot => agentLost slot (.host (h.oparg.toNat % 256)) s
    | none => s) s)

end Sys2Proof.Machine
end

