-- ==== Sys2Proof/Machine/Host.lean ====
section
/-! DEFINITION. CXL.mem on device-role ports: the checks of a request, rate limits, holds, relaying to a remote home,
back-invalidation responses, configuration requests (R22, R27, R48, R128, R129, R140, R393, R402, R467, R543). -/

namespace Sys2Proof.Machine

/-! ### Finding the composition and the pool address (R393, R557) -/

/-- The pool address of a host physical address under an entry's decoder. -/
def hdmPa (port k hpa : Nat) (s : State) : Option Nat :=
  match kget? s.prt.hdm (port * 16 + k) with
  | some d => if d.base ≤ hpa && hpa < d.base + d.size then some (hpa - d.base) else none
  | none => none

/-- It writes. -/
def kindWrites : HostKind → Bool
  | .wr _ _ => true
  | _ => false

/-- It reads data. -/
def kindReads : HostKind → Bool
  | .rdData => true
  | .rd _ _ => true
  | _ => false

/-- What completes a request that reaches no memory: poison for a read, Cmp otherwise. -/
def completeAbsent (port k hpa : Nat) (kind : HostKind) (s : State) : State :=
  hostComplete port k hpa (if kindReads kind then 2 else 3) 0 (kindReads kind) s

/-- A request outside every composition or agent entry (R27). -/
def absent (port k hpa : Nat) (kind : HostKind) (s : State) : State :=
  s |> finc (PRT_EVENT_CNT port 4) |> completeAbsent port k hpa kind

/-- A request of a composition in FAILED (R467), or to a failed home (R87). -/
def failedReq (port k hpa : Nat) (kind : HostKind) (s : State) : State :=
  s |> onlyIf (kindReads kind) (finc (PRT_EVENT_CNT port 6)) |> onlyIf (kindWrites kind) (finc (PRT_EVENT_CNT port 5))
    |> completeAbsent port k hpa kind

/-- A request at an unbacked offset (R63). -/
def unbackedReq (port k hpa : Nat) (kind : HostKind) (s : State) : State :=
  s |> finc (PRT_EVENT_CNT port (if kindWrites kind then 5 else 4))
    |> completeAbsent port k hpa kind

/-! ### Leaving capacity (R48, R49) -/

/-- The mapping of a composition differs between two entries (R49). -/
def mappingChanged (a b : Comp) : Bool := a.spanBytes != b.spanBytes || a.members != b.members

/-- A local offset leaves its composition with the staged delta, whose holds have begun. -/
def isLeaving (c : Comp) (l : Nat) (s : State) : Bool :=
  (s.img.deltaPhase == .draining || s.img.deltaPhase == .marking) &&
  match s.img.staged with
  | none => false
  | some d =>
    match d.entries.find? (fun e => e.1.cmpId == c.cmpId) with
    | none => false
    | some (n, present) =>
      !present || mappingChanged c n || (l < farWindow && n.nearBytes ≤ l) || (farWindow ≤ l && n.farBytes ≤ l - farWindow)

/-! ### Requests at their home, or relayed to it -/

/-- The vaults of a near physical address are in self-refresh. -/
def inSelfRefresh (p : Nat) (s : State) : Bool := p < farBase && bitAt (fget PWR_RETAIN_SELF_REFRESH s) (tileOf p)

/-- The CXL.mem request as a home request (R128); none for MemInv with a MetaValue other than A. -/
def homeKind : HostKind → Option RKind
  | .rdData => some .rdS
  | .rd ms mv => if !ms then some .rdCur else match mv with | .s => some .rdS | .a => some .rdX | .i => some .rdCur
  | .inv mv => if mv = .a then some .upg else none
  | .wr _ _ => some .write

/-- A MemWr to a line homed here: write-back from the owner, snoop data of the snooped owner, or a home write. -/
def hostWrite (port k agent slot line : Nat) (full : Bool) (mv : Meta) (r : HostReq) (s : State) : State :=
  let d := getDir slot line s
  let mask := if full then BitVec.allOnes 64 else r.mask
  let op : AccOp := .write r.data mask
  let me := Agent.host agent
  let reply := Reply.host port k r.hpa.toNat 3
  let isOwner := d.owner == some me && !isSoftware slot s
  if isOwner && d.st == .bSnp && s.coh.hostSnps.any (fun h => h.port == port && h.entry == k && h.line == line && h.slot == slot) then
    let old := match (compAt slot s).bind (fun c => physOf c (line * 64) s) with
      | some p => cellLine (p / 64) s
      | none => 0
    let v := overlay old r.data mask
    { s with coh := { s.coh with hostSnps := s.coh.hostSnps.map (fun h =>
        if h.port == port && h.entry == k && h.line == line && h.slot == slot then { h with wrote := some (v, r.poison) } else h) } }
      |> hostComplete port k r.hpa.toNat 3 0 false
  else if isOwner && d.st == .em then
    submit slot line { kind := .wb, agent := some me, reply, op, poison := r.poison, keep := mv } s
  else submit slot line { kind := .write, reply, op, poison := r.poison } s

/-- A request to a line homed here. -/
def hostHome (port k agent slot line : Nat) (kind : HostKind) (r : HostReq) (s : State) : State :=
  let s := meetEccAt slot line r.ecc s
  match kind with
  | .wr full mv => hostWrite port k agent slot line full mv r s
  | _ =>
    match homeKind kind with
    | none => hostComplete port k r.hpa.toNat 3 0 false s
    | some rk =>
      submit slot line { kind := rk, agent := some (.host agent), reply := .host port k r.hpa.toNat 2 } s

/-- A request relayed to the member it is homed on (R129). A Wb packet has no MetaValue: a write of the owner goes as Wb
only when the host keeps nothing, else as a home write. -/
def hostRelay (port k agent : Nat) (c : Comp) (node pa : Nat) (kind : HostKind) (r : HostReq) (s : State) : State :=
  let line := pa / 64
  let ownKey := (c.slot * 256 + agent) * 2 ^ 50 + line
  let hostArg := agent + 256
  let go (opc arg ck : Nat) (body : List (BitVec 128)) (s : State) : State :=
    (sendReq opc node c.cmpId (line * 64) arg body (r.poison && !body.isEmpty) (.relay port k r.hpa.toNat ck) s).2
  match kind with
  | .wr full mv =>
    if full && mv == .i && kmem s.coh.owned ownKey then go 0x04 hostArg 3 (lineSlots r.data) s
    else if full then go 0x08 0 3 (lineSlots r.data) s
    else go 0x09 r.mask.toNat 3 (lineSlots r.data) s
  | _ =>
    match homeKind kind with
    | some .rdS => go 0x01 hostArg 0 [] s
    | some .rdX => go 0x02 hostArg 1 [] s
    | some .upg => go 0x03 hostArg 1 [] s
    | some .rdCur => go 0x07 hostArg 2 [] s
    | _ => hostComplete port k r.hpa.toNat 3 0 false s

/-- A request past every hold: to its home. -/
def hostSubmit (h : HeldReq) (s : State) : State :=
  let port := h.req.port.val
  let hpa := h.req.hpa.toNat
  match entryOf port h.req.biId.toNat s with
  | none => absent port 16 hpa h.kind s
  | some k =>
    let agent := fget (PRT_AGENT_AGENT port k) s
    match entryComp port k s, hdmPa port k hpa s with
    | some c, some pa =>
      if c.state = .failed then failedReq port k hpa h.kind s else
      match homeOf c pa s with
      | .here (.at_ p) =>
        if !tierUp p s then failedReq port k hpa h.kind s
        else if inSelfRefresh p s then { s with prt := { s.prt with srWait := s.prt.srWait ++ [h] } }
        else hostHome port k agent c.slot (pa / 64) h.kind h.req s
      | .here .unallotted => failedReq port k hpa h.kind s
      | .member _ n => hostRelay port k agent c n pa h.kind h.req s
      | _ => unbackedReq port k hpa h.kind s
    | _, _ => absent port k hpa h.kind s

/-- A request past its rate limit: held while a delta holds its address (R48, R49). -/
def hostPass (h : HeldReq) (s : State) : State :=
  let port := h.req.port.val
  match entryOf port h.req.biId.toNat s with
  | none => hostSubmit h s
  | some k =>
    match entryComp port k s, hdmPa port k h.req.hpa.toNat s with
    | some c, some pa =>
      match splitPa c pa with
      | some (_, l) =>
        if c.state != .failed && isLeaving c l s then
          { s with prt := { s.prt with deltaHeld := s.prt.deltaHeld ++ [h] } } |> finc (CMP_DELTA_HOLD_CNT c.slot)
        else hostSubmit h s
      | none => hostSubmit h s
    | _, _ => hostSubmit h s

/-- Requests that a delta held go on, once it has committed or was abandoned. -/
def releaseDelta (s : State) : State :=
  if s.img.deltaPhase = .draining || s.img.deltaPhase = .marking then s else
  let hs := s.prt.deltaHeld
  each hs hostSubmit { s with prt := { s.prt with deltaHeld := [] } }

/-! ### Rate limits (R402, R403) -/

/-- The rate in bytes per nanosecond that an entry's agent is limited to; 0: no limit. -/
def entryRate (port k : Nat) (s : State) : Nat := ((entryComp port k s).map (·.hostRate)).getD 0

/-- Tokens arrive for `ns` nanoseconds at every bucket of a port. -/
def refill (port ns : Nat) (s : State) : State :=
  { s with prt := { s.prt with drained := (List.range 16).foldl (fun m k =>
      let key := port * 16 + k
      kset m key (kgetD m key 0 - ns * entryRate port k s) 0) s.prt.drained } }

/-- Take 64 bytes of tokens. -/
def takeTokens (port k : Nat) (s : State) : State :=
  let key := port * 16 + k
  { s with prt := { s.prt with drained := kset s.prt.drained key (kgetD s.prt.drained key 0 + 64) 0 } }

/-- Put a port's hold queue. -/
def setHeld (port : Nat) (q : List HeldReq) (s : State) : State :=
  { s with prt := { s.prt with rateHeld := kset s.prt.rateHeld port q [] } }

/-- The entry and readiness of a held request: its tokens are there. -/
def tokensThere (port : Nat) (h : HeldReq) (s : State) : Bool :=
  match entryOf port h.req.biId.toNat s with
  | some k => entryRate port k s == 0 || bucketFill port k s ≥ 64
  | none => true

/-- Requests of a hold queue whose tokens have come go on, oldest first. -/
def drainHeld (port : Nat) : Nat → State → State
  | 0, s => s
  | n + 1, s =>
    match (heldAt port s).find? (fun h => tokensThere port h s) with
    | none => s
    | some h =>
      s |> setHeld port (dropFirst (· == h) (heldAt port s))
        |> (fun s => match entryOf port h.req.biId.toNat s with
            | some k => onlyIf (entryRate port k s != 0) (takeTokens port k) s
            | none => s)
        |> hostPass h |> drainHeld port n

/-- Time passes at a port: tokens arrive, held requests count their time and go on when they can. -/
def portTime (port ns : Nat) (s : State) : State :=
  s |> refill port ns |> fadd (PRT_EVENT_CNT port 7) (ns * (heldAt port s).length) |> drainHeld port ((heldAt port s).length + 1)

/-- The nanoseconds until the oldest held request of a port has its tokens. -/
def nsToTokens (port : Nat) (s : State) : Option Nat :=
  match heldAt port s with
  | [] => none
  | h :: _ =>
    match entryOf port h.req.biId.toNat s with
    | some k =>
      let r := entryRate port k s
      let d := kgetD s.prt.drained (port * 16 + k) 0
      some (if r = 0 then 0 else (d + 64 - 65536 + r - 1) / r)
    | none => some 0

/-- Time passes until the oldest request that a port holds for its rate can go on (R402). -/
def rateRelease (p : Nat) (s : State) : State :=
  match nsToTokens p s with
  | some ns => portTime p ns s
  | none => s

/-- The port has CXL.mem up in the device role. -/
def memPort (port : Nat) (s : State) : Bool :=
  fget (PRT_STATUS_ROLE port) s == 1 && fbit (PRT_STATUS_LINK_UP port) s && !fbit (PRT_STATUS_MEM_OFF port) s

/-- A CXL.mem request arrives. A port whose hold queue is full has returned no credit for one (R403). -/
def hostRequest (kind : HostKind) (r : HostReq) (s : State) : State :=
  let port := r.port.val
  if !memPort port s || (heldAt port s).length ≥ 1024 then s else
  let s := s |> releaseDelta |> portTime port r.ns
  let h : HeldReq := ⟨kind, r⟩
  match entryOf port r.biId.toNat s with
  | none => hostSubmit h s
  | some k =>
    let limited := (kindReads kind || kindWrites kind) && entryRate port k s != 0
    let waiting := (heldAt port s).any (fun x => entryOf port x.req.biId.toNat s == some k)
    if limited && (waiting || bucketFill port k s < 64) then setHeld port (heldAt port s ++ [h]) s
    else s |> onlyIf limited (takeTokens port k) |> hostPass h

/-! ### Back-invalidation responses (R128, R129) -/

/-- Whether a response is allowed after a snoop. -/
def biAllowed (snp : Snp) (keeps : Meta) : Bool :=
  match keeps, snp with
  | .i, _ => true
  | .s, .s => true
  | .s, .cur => true
  | .a, .cur => true
  | _, _ => false

/-- A BIRsp (BIRspI keeps `.i`, BIRspS `.s`, BIRspE `.a`). A block form, a form the table marks Err, or one that answers
no snoop is discarded (R126). -/
def biRsp (keeps : Meta) (block : Bool) (r : HostReq) (s : State) : State :=
  let port := r.port.val
  if !memPort port s then s else
  match entryOf port r.biId.toNat s with
  | none => s |> finc (PRT_EVENT_CNT port 4)
  | some k =>
    let slot := fget (PRT_AGENT_SLOT port k) s
    match hdmPa port k r.hpa.toNat s with
    | none => errMsg true slot s
    | some pa =>
      let line := pa / 64
      match s.coh.hostSnps.find? (fun h => h.port == port && h.entry == k && h.slot == slot && h.line == line) with
      | none => errMsg true slot s
      | some h =>
        if block || !biAllowed h.snp keeps then errMsg true slot s else
        let s := { s with coh := { s.coh with hostSnps := s.coh.hostSnps.erase h } }
        let rk : RspKind := if h.wrote.isSome then .data else if keeps = .i then .ack else .fwd
        let (d, b) := h.wrote.getD (0, false)
        match h.inval, h.relay with
        | some d, _ => invalDone d s
        | none, some (node, tag) =>
          let opc := match rk with | .data => 0x48 | .ack => 0x45 | _ => 0x46
          let ownKey := (slot * 256 + fget (PRT_AGENT_AGENT port k) s) * 2 ^ 50 + line
          let s := if keeps = .a then s else { s with coh := { s.coh with owned := kin s.coh.owned ownKey false } }
          send opc node (cmpIdOf slot s) tag 0 0 (if opc = 0x48 then lineSlots d else []) b s
        | none, none => response slot line (.host (fget (PRT_AGENT_AGENT port k) s)) rk d h.wrote.isSome b keeps s

/-- BIConflict is answered at once: every completion already sent precedes the answer (R140). -/
def biConflict (r : HostReq) (s : State) : State :=
  let port := r.port.val
  if !memPort port s then s else
  match entryOf port r.biId.toNat s with
  | none => s
  | some k =>
    match hdmPa port k r.hpa.toNat s with
    | none => s
    | some pa =>
      let hit (h : HostSnp) : Bool := h.port == port && h.entry == k && h.line == pa / 64
      if s.coh.hostSnps.any hit then
        { s with coh := { s.coh with hostSnps := s.coh.hostSnps.map (fun h => if hit h then { h with conflict := true } else h) } }
          |> emit (.biConflictAck port k r.hpa.toNat)
      else errMsg true (fget (PRT_AGENT_SLOT port k) s) s

/-- The port is ready (R543). -/
def portReady (port : Nat) (s : State) : Bool :=
  fbit FAB_NODE_JOINED s && s.comps.all (fun c => !bitAt c.portMask port || c.state == .active || c.state == .failed)
    && s.img.waiting.all (fun c => !bitAt c.portMask port)

/-! ### The commands -/

/-- MEM_RD_DATA (R128). -/
def execMemRdData (r : HostReq) (s : State) := ok (hostRequest .rdData r s)
/-- MEM_RD (R128). -/
def execMemRd (r : HostReq) (ms : Bool) (mv : Meta) (s : State) := ok (hostRequest (.rd ms mv) r s)
/-- MEM_INV (R128): MemInv and MemInvNT alike. -/
def execMemInv (r : HostReq) (_nt : Bool) (mv : Meta) (s : State) := ok (hostRequest (.inv mv) r s)
/-- MEM_SPEC_RD (R128): a hint, with no answer and no directory change. -/
def execMemSpecRd (_r : HostReq) (s : State) := ok s
/-- MEM_WR (R128). -/
def execMemWr (r : HostReq) (full : Bool) (mv : Meta) (s : State) := ok (hostRequest (.wr full mv) r s)
/-- BI_RSP_I (R128). -/
def execBiRspI (r : HostReq) (block : Bool) (s : State) := ok (biRsp .i block r s)
/-- BI_RSP_S (R128). -/
def execBiRspS (r : HostReq) (block : Bool) (s : State) := ok (biRsp .s block r s)
/-- BI_RSP_E (R128). -/
def execBiRspE (r : HostReq) (block : Bool) (s : State) := ok (biRsp .a block r s)
/-- BI_CONFLICT (R140). -/
def execBiConflict (r : HostReq) (s : State) := ok (biConflict r s)

/-- CONFIG_REQUEST (R543): retry status until the port is ready. -/
def execConfigRequest (port : Fin 24) (s : State) :=
  ok (if fget (PRT_STATUS_ROLE port) s = 1 && fbit (PRT_STATUS_LINK_UP port) s then emit (.config port (!portReady port s)) s else s)

end Sys2Proof.Machine
end

