-- ==== Sys2Proof/Machine/Operands.lean ====
section
/-! DEFINITION. Descriptors as operands: the common header (R183), the fields of every command, their checks (step 9 of
R185) and their address fields (R213). -/

namespace Sys2Proof.Machine

/-- `n` bytes of a descriptor from byte `off`. -/
def db (raw : BitVec 1024) (off n : Nat) : Nat := bitsOf raw.toNat (8 * off) (8 * n)

/-- OPC, ENG, DVER. -/
def dOpc (r : BitVec 1024) : Nat := db r 0 1
/-- See `dOpc`. -/
def dEng (r : BitVec 1024) : Nat := bitsOf r.toNat 8 4
/-- See `dOpc`. -/
def dVer (r : BitVec 1024) : Nat := bitsOf r.toNat 12 4
/-- FLAGS. -/
def dExt (r : BitVec 1024) : Bool := bitAt r.toNat 16
/-- See `dExt`. -/
def dLink (r : BitVec 1024) : Bool := bitAt r.toNat 17
/-- See `dExt`. -/
def dOrder (r : BitVec 1024) : Nat := bitsOf r.toNat 18 2
/-- See `dExt`. -/
def dIrq (r : BitVec 1024) : Bool := bitAt r.toNat 20
/-- See `dExt`. -/
def dQuiet (r : BitVec 1024) : Bool := bitAt r.toNat 21
/-- SEQ, ASID, JOB. -/
def dSeq (r : BitVec 1024) : Nat := db r 4 4
/-- See `dSeq`. -/
def dAsid (r : BitVec 1024) : Nat := db r 8 2
/-- See `dSeq`. -/
def dJob (r : BitVec 1024) : Nat := db r 10 2

/-- What a check of a descriptor finds: nothing, or a status and its DETAIL. -/
abbrev Chk := Option (Nat × Nat)

/-- The first check of a list that fails. -/
def firstFail : List Chk → Chk
  | [] => none
  | some x :: _ => some x
  | none :: r => firstFail r

/-- A field that must be zero (status 0x21). -/
def zeroField (r : BitVec 1024) (off n : Nat) : Chk := if db r off n = 0 then none else some (0x21, off)

/-- A condition that must hold for the field at `off` (status 0x20). -/
def wellField (c : Bool) (off : Nat) : Chk := if c then none else some (0x20, off)

/-- Any condition with its status and field. -/
def must (c : Bool) (status off : Nat) : Chk := if c then none else some (status, off)

/-- Nanoseconds of stall under a cause code, counted once for the sluice, the engine and the composition (R89, R90). -/
def addStall (id code ns : Nat) (s : State) : State :=
  match descOf id s with
  | none => s
  | some d =>
    let s := s |> fadd (SLC_STALL_CNT d.sluice code) ns |> fadd (ENG_STALL_CNT (dEng d.raw) code) ns
      |> modDesc id (fun d => { d with stall := d.stall ||| 2 ^ code })
    match compOfSluice d.sluice s with
    | some c => fadd (CMP_STALL_CNT c.slot code) ns s
    | none => s

/-- The target and rights of one byte of a range of virtual addresses through a descriptor's runs. -/
def runAt (runs : List Run) (va : Nat) : Option (Target × Bool) :=
  (runs.find? (fun r => r.va ≤ va && va < r.va + r.len)).map (fun r =>
    (match r.target with
     | .pool a => .pool (a + (va - r.va))
     | .host g a => .host g (a + (va - r.va))
     | .view m h p => .view m h (p + (r.va % 4096 + (va - r.va)) / 4096), r.wr))

/-- The node that homes the byte at a virtual address, and its local offset there, when it lies in the pool. -/
def homeAt (c : Comp) (runs : List Run) (va : Nat) : Option (Nat × Nat) :=
  match runAt runs va with
  | some (.pool a, _) => (splitPa c a).bind (fun x => (c.members[x.1]?).map (fun n => (n, x.2)))
  | _ => none

/-- Elements of an array of `n` in a format that has them at bit granularity: its length in bytes. -/
def arrayBytes (fmt n : Nat) : Nat := (n * fmtBits fmt + 7) / 8

/-- The bytes of an array with its scales (R256, R279). -/
def arrayLen (fmt n : Nat) : Nat :=
  if isMx fmt then (arrayBytes fmt n + 255) / 256 * 256 + n / 32 else arrayBytes fmt n

/-- The first check of a format field: accepted, else the status of R251. -/
def fmtField (ok : Bool) (code off : Nat) : Chk := if ok then none else some (fmtStatus code, off)

/-- An option of the feature words (status 0x22). -/
def option (acc bit : Nat) (used : Bool) (off : Nat) : Chk := must (!used || bitAt acc bit) 0x22 off

/-- A field put into a list of fields that rises by offset. -/
def insField (f : Nat × Nat) : List (Nat × Nat) → List (Nat × Nat)
  | [] => [f]
  | x :: t => if f.1 ≤ x.1 then f :: x :: t else x :: insField f t

/-- Several unused fields, each zero: the one of the lowest offset that is not is reported (R189). -/
def zeros (r : BitVec 1024) (l : List (Nat × Nat)) : Chk :=
  firstFail ((l.foldr insField []).map (fun f => zeroField r f.1 f.2))

/-- The scalars P0 to P7, four bytes each (R277). -/
def scalarFields : List (Nat × Nat) := (List.range 8).map (fun k => (96 + 4 * k, 4))

end Sys2Proof.Machine
end

