-- ==== Sys2Proof/Machine/Recipe.lean ====
section
/-! DEFINITION. Recipes (chapter 9): the checks of a recipe block (R237 to R241), the built-in recipes (R249), and what a
recipe does to one element (R240, R242, R243, R245, R248). -/

namespace Sys2Proof.Machine

/-! ### The hash unit (R307) -/

/-- hash64. -/
def hash64 (k0 k1 len hseed : Nat) : Nat :=
  let x := mix64 (hseed ^^^ 0x6C3E91D70B58A2F4)
  let x := mix64 (x ^^^ k0)
  mix64 (x ^^^ k1 ^^^ (len * 2 ^ 56 % 2 ^ 64))

/-! ### The block (R237 to R239) -/

/-- `n` bytes of a block from byte `off`. -/
def blk (b : BitVec 3072) (off n : Nat) : Nat := bitsOf b.toNat (8 * off) (8 * n)

/-- A stream entry (R238). -/
structure StreamE where
  mode : Nat
  fmt : Nat
  rnd : Nat
  layout : Nat
  deriving DecidableEq, Repr

/-- Stream entry `k`. -/
def streamE (b : BitVec 3072) (k : Nat) : StreamE :=
  ⟨blk b (8 + 4 * k) 1, blk b (9 + 4 * k) 1, blk b (10 + 4 * k) 1, blk b (11 + 4 * k) 1⟩

/-- N_OPS and the operation words. -/
def nOps (b : BitVec 3072) : Nat := blk b 1 1
/-- See `nOps`. -/
def opWord (b : BitVec 3072) (i : Nat) : Nat := blk b (128 + 8 * i) 8
/-- The words in use. -/
def opWords (b : BitVec 3072) : List Nat := (List.range (min 32 (nOps b))).map (opWord b)

/-- OPC, DST, A, B, C, IMM of a word (R239). -/
def wOpc (w : Nat) : Nat := bitsOf w 0 8
/-- See `wOpc`. -/
def wDst (w : Nat) : Nat := bitsOf w 8 6
/-- See `wOpc`. -/
def wA (w : Nat) : Nat := bitsOf w 14 6
/-- See `wOpc`. -/
def wB (w : Nat) : Nat := bitsOf w 20 6
/-- See `wOpc`. -/
def wC (w : Nat) : Nat := bitsOf w 26 6
/-- See `wOpc`. -/
def wImm (w : Nat) : Nat := bitsOf w 32 5

/-- How many sources an operation uses, A first (R240); none for a code not assigned. -/
def opSources (o : Nat) : Option Nat :=
  if [0x39].contains o then some 0
  else if [0x07, 0x08, 0x09, 0x0C, 0x0D, 0x0F, 0x10, 0x11, 0x12, 0x1B, 0x26, 0x27, 0x28, 0x29, 0x30, 0x31, 0x40].contains o then some 1
  else if [0x01, 0x02, 0x03, 0x06, 0x0A, 0x0B, 0x18, 0x19, 0x1A, 0x20, 0x21, 0x22, 0x23, 0x24, 0x25, 0x2A, 0x2B, 0x2C, 0x2D,
      0x38].contains o then some 2
  else if [0x04, 0x05, 0x0E, 0x1C].contains o then some 3
  else none

/-- Operations that take IMM. -/
def opImm (o : Nat) : Bool := o == 0x26 || o == 0x27 || o == 0x28 || o == 0x40

/-- Bytes of a stream element. -/
def streamBytes (e : StreamE) : Nat := fmtBits e.fmt / 8

/-- The largest element size among the streams in use (W of R244). -/
def streamW (b : BitVec 3072) : Nat :=
  ((List.range 4).map (fun k => if (streamE b k).mode = 0 then 0 else streamBytes (streamE b k))).foldl max 1

/-! ### The checks (R241) -/

/-- A failure in the block: its status and DETAIL. -/
def blkFail (ok : Bool) (status off : Nat) : Option (Nat × Nat) := if ok then none else some (status, 2 ^ 31 + off)

/-- The first failure of a list. -/
def firstBad : List (Option (Nat × Nat)) → Option (Nat × Nat)
  | [] => none
  | some x :: _ => some x
  | none :: r => firstBad r

/-- The checks of stream entry `k`. -/
def checkStream (b : BitVec 3072) (k : Nat) : Option (Nat × Nat) :=
  let e := streamE b k
  let o := 8 + 4 * k
  let fmtIn := [0x01, 0x02, 0x03, 0x04, 0x05, 0x06].contains e.fmt
  if e.mode = 0 then
    firstBad [blkFail (k ≠ 0) 0x20 o, blkFail (e.fmt = 0) 0x20 (o + 1), blkFail (e.rnd = 0) 0x20 (o + 2), blkFail (e.layout = 0) 0x20 (o + 3)]
  else firstBad [blkFail (e.mode ≤ 3) 0x20 o, blkFail fmtIn (fmtStatus e.fmt) (o + 1), blkFail (e.rnd ≤ 2) 0x20 (o + 2),
    blkFail (e.layout ≤ 1) 0x20 (o + 3)]

/-- An operand may be read (R239); `seen` are the temporaries written so far. -/
def srcOk (b : BitVec 3072) (seen : List Nat) (x : Nat) : Bool :=
  if x < 16 then seen.contains x
  else if x < 20 then let m := (streamE b (x - 16)).mode; m == 1 || m == 3
  else if 0x18 ≤ x && x ≤ 0x1F then x - 0x18 < blk b 2 1
  else 0x20 ≤ x && x ≤ 0x2A

/-- An operand may be a destination. -/
def dstOk (b : BitVec 3072) (x : Nat) : Bool :=
  x < 16 || (16 ≤ x && x < 20 && (let m := (streamE b (x - 16)).mode; m == 2 || m == 3))

/-- The checks of operation word `i`. -/
def checkOp (b : BitVec 3072) (seen : List Nat) (i : Nat) : Option (Nat × Nat) :=
  let w := opWord b i
  let o := 128 + 8 * i
  let opc := wOpc w
  match opSources opc with
  | none => blkFail false (if opc ≥ 0xC0 then 0x22 else 0x20) o
  | some n =>
    let used (k x : Nat) : Bool := if k < n then srcOk b seen x else x == 0x3F
    firstBad [
      blkFail (opImm opc || wImm w = 0) 0x21 (o + 4),
      blkFail (opc ≠ 0x40 || wImm w ≤ 3) 0x20 (o + 4),
      blkFail (bitsOf w 37 27 = 0) 0x21 (o + 4),
      blkFail (if opc = 0x40 then wDst w == 0x3F else dstOk b (wDst w)) 0x20 (o + 1),
      blkFail (used 0 (wA w)) 0x20 (o + 1),
      blkFail (used 1 (wB w)) 0x20 (o + 2),
      blkFail (used 2 (wC w)) 0x20 (o + 3)]

/-- The checks of the words from `i` on. -/
def checkOps (b : BitVec 3072) : Nat → Nat → List Nat → Option (Nat × Nat)
  | 0, _, _ => none
  | n + 1, i, seen =>
    match checkOp b seen i with
    | some x => some x
    | none =>
      let d := wDst (opWord b i)
      checkOps b n (i + 1) (if d < 16 then d :: seen else seen)

/-- The first non-zero byte among the reserved ones, and the words beyond N_OPS. -/
def reservedBad (b : BitVec 3072) : Option (Nat × Nat) :=
  let rs := [3, 4, 5, 6, 7] ++ (List.range 40).map (· + 24) ++ (List.range 32).map (· + 96)
    ++ (List.range (256 - 8 * min 32 (nOps b))).map (· + 128 + 8 * min 32 (nOps b))
  (rs.find? (fun o => blk b o 1 ≠ 0)).map (fun o => (0x21, 2 ^ 31 + o))

/-- Every written stream is written by some operation. -/
def notWritten (b : BitVec 3072) (k : Nat) : Option (Nat × Nat) :=
  let m := (streamE b k).mode
  blkFail ((m ≠ 2 && m ≠ 3) || (opWords b).any (fun w => wOpc w ≠ 0x40 && wDst w = 16 + k)) 0x20 (8 + 4 * k)

/-- The checks of a recipe block in order (R241). -/
def checkBlk (b : BitVec 3072) : Option (Nat × Nat) :=
  let v := blk b 0 1
  firstBad ([
    blkFail (v ≠ 0 && v < 16) 0x20 0, blkFail (v = 1) 0x22 0,
    blkFail (1 ≤ nOps b && nOps b ≤ 32) 0x20 1, blkFail (blk b 2 1 ≤ 8) 0x20 2]
    ++ (List.range 4).map (checkStream b) ++ [reservedBad b, checkOps b (nOps b) 0 []] ++ (List.range 4).map (notWritten b))

/-! ### Built-in recipes (R249) -/

/-- A block from its parts: streams, N_OPS, the words. -/
def mkBlock (streams : List (Nat × Nat × Nat × Nat)) (n : Nat) (words : Nat) : BitVec 3072 :=
  let st := streams.foldr (fun e a => (e.1 + e.2.1 * 2 ^ 8 + e.2.2.1 * 2 ^ 16 + e.2.2.2 * 2 ^ 24) + a * 2 ^ 32) 0
  BitVec.ofNat 3072 (1 + n * 2 ^ 8 + st * 2 ^ 64 + words * 2 ^ 1024)

/-- Words in order. -/
def packWords (ws : List Nat) : Nat := ws.foldr (fun w a => w + a * 2 ^ 64) 0

/-- One word. -/
def mkWord (opc dst a b c : Nat) : Nat := opc + dst * 2 ^ 8 + a * 2 ^ 14 + b * 2 ^ 20 + c * 2 ^ 26

/-- The operations of ADAMW (Example 9.2). -/
def adamwWords : List Nat :=
  [0xFE74C003, 0xFC044102, 0x00185104, 0xFC000203, 0xFC248302, 0x08389204, 0xFE648403, 0xFFF10407, 0xFE310401,
   0xFE544503, 0xFC414506, 0x15090604, 0x40681005]

/-- FACT_STATS sums g² × P7², and AXPY makes a × x + y: the sequences of operations that compute them, of which the block
holds one (R249, assumption 23). -/
def factStatsWords (order : Nat) : List Nat :=
  (match order with
  | 0 => [mkWord 0x03 0 0x10 0x27 0x3F, mkWord 0x03 2 0 0 0x3F]
  | 1 => [mkWord 0x03 0 0x10 0x10 0x3F, mkWord 0x03 1 0x27 0x27 0x3F, mkWord 0x03 2 0 1 0x3F]
  | 2 => [mkWord 0x03 0 0x10 0x10 0x3F, mkWord 0x03 1 0 0x27 0x3F, mkWord 0x03 2 1 0x27 0x3F]
  | _ => [mkWord 0x03 0 0x10 0x27 0x3F, mkWord 0x03 1 0 0x10 0x3F, mkWord 0x03 2 1 0x27 0x3F])
  ++ [mkWord 0x40 0x3F 2 0x3F 0x3F]

/-- See `factStatsWords`. -/
def axpyWords (order : Nat) : List Nat :=
  if order = 0 then [mkWord 0x04 0x10 0x20 0x11 0x10] else [mkWord 0x03 0 0x20 0x11 0x3F, mkWord 0x01 0x10 0 0x10 0x3F]

/-- The block of a built-in whose words are `ws`. -/
def listBlock (streams : List (Nat × Nat × Nat × Nat)) (ws : List Nat) : BitVec 3072 := mkBlock streams ws.length (packWords ws)

/-- The built-in blocks. ADAMW and ADAMW_SR are Example 9.2's; of the others R249 gives the streams and what FACT_STATS and AXPY
compute, and their words and LAYOUT entries are open (assumption 23). -/
def builtin (sel : Nat) : Option (BitVec 3072) :=
  let lay (k : Nat) := b2n (Config.builtinAligned sel k)
  match sel with
  | 1 => some (mkBlock [(3, 1, 0, lay 0), (3, 1, 0, lay 1), (0, 0, 0, 0), (1, 3, 0, lay 3)] 32 (Config.builtinOps 1).toNat)
  | 2 => some (listBlock [(3, 1, 0, 1), (3, 1, 0, 1), (3, 1, 0, 1), (1, 3, 0, 1)] adamwWords)
  | 3 => some (listBlock [(3, 3, 2, 1), (3, 3, 2, 1), (3, 3, 2, 1), (1, 3, 0, 1)] adamwWords)
  | 4 => some (listBlock [(1, 3, 0, 1), (0, 0, 0, 0), (0, 0, 0, 0), (0, 0, 0, 0)] (factStatsWords (Config.builtinOrder 4)))
  | 5 => some (mkBlock [(3, 1, 0, lay 0), (3, 1, 0, lay 1), (0, 0, 0, 0), (1, 3, 0, lay 3)] 32 (Config.builtinOps 5).toNat)
  | 6 => some (listBlock [(3, 1, 0, lay 0), (1, 3, 0, lay 1), (0, 0, 0, 0), (0, 0, 0, 0)] (axpyWords (Config.builtinOrder 6)))
  | _ => none

/-- A built-in under MERGE_APPLY and SCATTER_MERGE: LAYOUT 0 on every stream and S3 in OUT_FMT (R249). -/
def placed (b : BitVec 3072) (outFmt : Nat) : BitVec 3072 :=
  let n := b.toNat
  let n := [11, 15, 19, 23].foldl (fun n o => n - bitsOf n (8 * o) 8 * 2 ^ (8 * o)) n
  let n := if (streamE b 3).mode = 0 then n else n - bitsOf n (8 * 21) 8 * 2 ^ (8 * 21) + outFmt * 2 ^ (8 * 21)
  BitVec.ofNat 3072 n

/-! ### One element (R240, R242) -/

/-- What the operations of an element change. -/
structure ElemS where
  temps : List Nat
  streams : List Nat
  /-- Terms given to the exact sums, by number. -/
  sums : List (Nat × Nat) := []
  flags : Nat := 0
  deriving DecidableEq, Repr

/-- What an element reads beside its streams. -/
structure ElemIn where
  consts : List Nat
  scalars : List Nat
  seed : Nat
  step : Nat
  index : Nat
  deriving DecidableEq, Repr

/-- Read an operand. -/
def operand (x : ElemIn) (s : ElemS) (c : Nat) : Nat :=
  if c < 16 then s.temps.getD c 0
  else if c < 20 then s.streams.getD (c - 16) 0
  else if 0x18 ≤ c && c ≤ 0x1F then x.consts.getD (c - 0x18) 0
  else if 0x20 ≤ c && c ≤ 0x27 then x.scalars.getD (c - 0x20) 0
  else if c = 0x28 then x.index % 2 ^ 32
  else if c = 0x29 then x.index / 2 ^ 32 % 2 ^ 32
  else 0

/-- Ones in a number. -/
def popc (n : Nat) : Nat := ((List.range 32).filter (bitAt n)).length

/-- The value and flags of an operation. -/
def opResult (o a b c imm : Nat) : Nat × Nat :=
  let m := 2 ^ 32
  let si := toInt 32
  match o with
  | 0x01 => fadd32 a b
  | 0x02 => fsub32 a b
  | 0x03 => fmul32 a b
  | 0x04 => ffma32 false a b c
  | 0x05 => ffma32 true a b c
  | 0x06 => fdiv32 a b
  | 0x07 => fsqrt32 a
  | 0x08 => frcp32 a
  | 0x09 => frsqrt32 a
  | 0x0A => fmin32 a b
  | 0x0B => fmax32 a b
  | 0x0C => (a % 2 ^ 31, 0)
  | 0x0D => (a ^^^ 2 ^ 31, 0)
  | 0x0E =>
    let (x, f) := fmax32 a b
    let (y, g) := fmin32 x c
    (y, f ||| g)
  | 0x0F => (a, 0)
  | 0x10 => fexp32 a
  | 0x11 => flog32 a
  | 0x12 => ftanh32 a
  | 0x18 => fcmplt32 a b
  | 0x19 => fcmple32 a b
  | 0x1A => fcmpeq32 a b
  | 0x1B => (mask32 (isNanV (fdec b32 a)), 0)
  | 0x1C => (if a ≠ 0 then b else c, 0)
  | 0x20 => ((a + b) % m, 0)
  | 0x21 => ((a + m - b) % m, 0)
  | 0x22 => (a * b % m, 0)
  | 0x23 => (a &&& b, 0)
  | 0x24 => (a ||| b, 0)
  | 0x25 => (a ^^^ b, 0)
  | 0x26 => (a * 2 ^ imm % m, 0)
  | 0x27 => (a / 2 ^ imm, 0)
  | 0x28 => ((si a / 2 ^ imm % m).toNat, 0)
  | 0x29 => (popc a, 0)
  | 0x2A => (mask32 (si a < si b), 0)
  | 0x2B => (mask32 (a == b), 0)
  | 0x2C => (if si a < si b then a else b, 0)
  | 0x2D => (if si a < si b then b else a, 0)
  | 0x30 => cvtif a
  | 0x31 => cvtfi a
  | 0x38 => (hash64 (a + b * 2 ^ 32) 0 8 0 % 2 ^ 32, 0)
  | _ => (0, 0)

/-- One operation of an element; `pos` is its position. -/
def elemOp (x : ElemIn) (s : ElemS) (pos w : Nat) : ElemS :=
  let a := operand x s (wA w)
  let o := wOpc w
  if o = 0x40 then
    if isNanV (fdec b32 a) then { s with flags := s.flags ||| fINV }
    else { s with sums := s.sums ++ [(wImm w, a)] }
  else
    let (r, f) := if o = 0x39 then (draw x.seed x.step x.index (4 + pos), 0)
      else opResult o a (operand x s (wB w)) (operand x s (wC w)) (wImm w)
    let d := wDst w
    if d < 16 then { s with temps := s.temps.set d r, flags := s.flags ||| f }
    else if d < 20 then { s with streams := s.streams.set (d - 16) r, flags := s.flags ||| f }
    else { s with flags := s.flags ||| f }

/-- The operations of an element in order. -/
def elemOps (x : ElemIn) : List Nat → Nat → ElemS → ElemS
  | [], _, s => s
  | w :: r, i, s => elemOps x r (i + 1) (elemOp x s i w)

/-- The constants of a block. -/
def blkConsts (b : BitVec 3072) : List Nat := (List.range 8).map (fun i => blk b (64 + 4 * i) 4)

/-- Run a block on one element: `raws` are the loaded bits of its four streams. Gives the stored bits of each written
stream, the terms of its sums, and its flags. -/
def runElem (b : BitVec 3072) (x : ElemIn) (raws : List Nat) : List (Option Nat) × List (Nat × Nat) × Nat :=
  let ld := (List.range 4).map (fun k =>
    let e := streamE b k
    if e.mode = 1 || e.mode = 3 then readElem e.fmt (raws.getD k 0) else (0, 0))
  let s := elemOps x (opWords b) 0 { temps := List.replicate 16 0, streams := ld.map (·.1), flags := ld.foldl (fun m v => m ||| v.2) 0 }
  let st := (List.range 4).map (fun k =>
    let e := streamE b k
    if e.mode = 2 || e.mode = 3 then
      let v := s.streams.getD k 0
      some (if e.fmt = 0x06 then satInt 8 (toInt 32 v) else writeElem e.fmt e.rnd (draw x.seed x.step x.index k) v)
    else none)
  (st.map (fun o => o.map (·.1)), s.sums, st.foldl (fun m o => m ||| (o.map (·.2)).getD 0) s.flags)

/-- Where element `i` of a stream lies after its base (R244). -/
def streamOff (b : BitVec 3072) (k i : Nat) : Nat :=
  let e := streamE b k
  let n := 256 / streamW b
  if e.layout = 1 then i / n * 256 + i % n * streamBytes e else i * streamBytes e

/-- The length of a stream of `n` elements. -/
def streamLen (b : BitVec 3072) (k n : Nat) : Nat :=
  if n = 0 then 0 else streamOff b k (n - 1) + streamBytes (streamE b k)

end Sys2Proof.Machine
end

