-- ==== Sys2Proof/Machine/CheckReduce.lean ====
section
/-! DEFINITION. The Reduce engine's descriptors (chapter 11): their fields, their checks (R278) and their address
fields. -/

namespace Sys2Proof.Machine

/-- MODE: FAST and INCLUDE_RESULT. -/
def rdFast (r : BitVec 1024) : Bool := bitsOf (db r 12 1) 0 2 == 1
/-- See `rdFast`. -/
def rdInclude (r : BitVec 1024) : Bool := bitAt (db r 12 1) 2
/-- IN_FMT, OUT_FMT, RND. -/
def rdIn (r : BitVec 1024) : Nat := db r 13 1
/-- See `rdIn`. -/
def rdOut (r : BitVec 1024) : Nat := db r 14 1
/-- See `rdIn`. -/
def rdRnd (r : BitVec 1024) : Nat := db r 15 1
/-- COLL_ID and the group. -/
def rdColl (r : BitVec 1024) : Nat := db r 16 2
/-- Member indices of the group. -/
def rdGroup (r : BitVec 1024) : List Nat :=
  (List.range (db r 20 2)).map (fun i => bitsOf (db r 18 2) 0 10 + i * db r 22 2)
/-- N, RESULT_VA, SEED, STEP, SRC_VA, SRC_STRIDE, SRC_COUNT, AUX_VA. -/
def rdN (r : BitVec 1024) : Nat := db r 24 8
/-- See `rdN`. -/
def rdResult (r : BitVec 1024) : Nat := db r 32 8
/-- See `rdN`. -/
def rdSeed (r : BitVec 1024) : Nat := db r 40 8
/-- See `rdN`. -/
def rdStep (r : BitVec 1024) : Nat := db r 48 4
/-- See `rdN`. -/
def rdSel (r : BitVec 1024) : Nat := db r 54 1
/-- See `rdN`. -/
def rdSrc (r : BitVec 1024) : Nat := db r 64 8
/-- See `rdN`. -/
def rdStride (r : BitVec 1024) : Nat := db r 72 8
/-- See `rdN`. -/
def rdCount (r : BitVec 1024) : Nat := db r 80 2
/-- See `rdN`. -/
def rdAux (r : BitVec 1024) : Nat := db r 88 8
/-- P0 to P7. -/
def rdScalars (r : BitVec 1024) : List Nat := (List.range 8).map (fun i => db r (96 + 4 * i) 4)

/-- Formats that enter (R280). -/
def redIn (f : Nat) : Bool := (1 ≤ f && f ≤ 5) || isMx f || f == 0x20 || f == 0x21
/-- Formats that leave. -/
def redOut (f : Nat) (fast : Bool) : Bool := (1 ≤ f && f ≤ 5) || isMx f || (f == 0x20 && !fast)

/-- Fields each command leaves unused (R277). -/
def redUnused (r : BitVec 1024) : List (Nat × Nat) :=
  match dOpc r with
  | 1 => [(16, 2), (18, 2), (20, 2), (22, 2), (52, 2), (54, 1), (55, 1), (56, 8), (82, 2), (84, 4), (88, 8)] ++ scalarFields
  | 2 => [(54, 1), (55, 1), (56, 8), (82, 2), (84, 4), (88, 8)] ++ scalarFields
  | 3 => [(54, 1), (55, 1), (56, 8), (82, 2), (84, 4)] ++ scalarFields
  | 4 => [(55, 1)] ++ (if rdSel r = 0 then [] else [(56, 8)]) ++ [(82, 2)]
  | _ => [(12, 1), (13, 1), (14, 1), (15, 1), (16, 2), (18, 2), (20, 2), (22, 2), (52, 2), (55, 1)]
      ++ (if rdSel r = 0 then [] else [(56, 8)]) ++ [(72, 8), (80, 2), (82, 2)]

/-- The group names this member, lies within the members, and its collective is free (R278, step 5). -/
def redGroupOk (r : BitVec 1024) (c : Comp) (s : State) : Chk :=
  let base := bitsOf (db r 18 2) 0 10
  let cnt := db r 20 2
  let str := db r 22 2
  firstFail [
    wellField (rdColl r ≠ 0) 16,
    wellField (!(kget? s.engs.colls (c.slot * 65536 + rdColl r)).any (fun x => x.desc.isSome)) 16,
    wellField (1 ≤ cnt && cnt ≤ 1024) 20,
    wellField (1 ≤ str && str ≤ 1023) 22,
    wellField (base + (cnt - 1) * str < c.members.length) 18,
    wellField ((memberIndex c (myNode s)).any (fun i => (rdGroup r).contains i)) 18,
    wellField (db r 52 2 ≤ 60000) 52]

/-- The checks of R278. -/
def checkReduce (r : BitVec 1024) (c : Comp) (acc : Nat) (s : State) : Chk :=
  let o := dOpc r
  let run := o == 5
  let coll := o == 2 || o == 3 || o == 4
  let rcp := o == 4 || run
  firstFail [
    wellField (dExt r) 2,
    if run then none else firstFail [
      wellField (bitsOf (db r 12 1) 0 2 ≤ 1) 12, option acc 98 (rdFast r) 12,
      fmtField (redIn (rdIn r)) (rdIn r) 13, option acc 99 (isMx (rdIn r)) 13,
      option acc 100 (rdIn r == 0x20 || rdIn r == 0x21) 13,
      fmtField (redOut (rdOut r) (rdFast r)) (rdOut r) 14, option acc 99 (isMx (rdOut r)) 14,
      option acc 100 (rdOut r == 0x20) 14, wellField (rdRnd r ≤ 2) 15],
    option acc 101 (rcp && rdSel r == 0) 54,
    if run then none else must (bitsOf (db r 12 1) 3 5 = 0) 0x21 12,
    if coll then must (bitsOf (db r 18 2) 10 6 = 0) 0x21 18 else none,
    zeros r (redUnused r),
    wellField (1 ≤ rdN r && rdN r < 2 ^ 40) 24,
    wellField (run || !(isMx (rdIn r) || isMx (rdOut r)) || rdN r % 32 = 0) 24,
    if coll then redGroupOk r c s else none,
    if run then none else wellField (1 ≤ rdCount r && rdCount r ≤ 256) 80,
    if run then wellField (rdResult r % 4 = 0) 32 else none,
    if rcp then firstFail [
      wellField (rdSel r = 0 || (builtin (rdSel r)).isSome) 54,
      wellField (rdSel r ≠ 0 || db r 56 8 % 64 = 0) 56] else none]

/-- The recipe block in force for a descriptor of MERGE_APPLY or RUN. -/
def redRecipe (r : BitVec 1024) (blocks : List (BitVec 3072)) : BitVec 3072 :=
  if rdSel r = 0 then blocks.headD 0
  else
    let b := (builtin (rdSel r)).getD 0
    if dOpc r = 4 then placed b (rdOut r) else b

/-- Base of stream `k` (R294, R295). -/
def redStreamVa (r : BitVec 1024) (k : Nat) : Nat :=
  if k = 3 then (if dOpc r = 4 then rdResult r else rdSrc r) else rdAux r + k * db r 84 4 * 2 ^ 20

/-- The block a descriptor still has to read. -/
def redNext (r : BitVec 1024) (blocks : List (BitVec 3072)) : Option (Nat × Nat) :=
  if (dOpc r = 4 || dOpc r = 5) && rdSel r = 0 && blocks.isEmpty then some (db r 56 8, 384) else none

/-- The checks of a recipe block that was read (R236, R241, R294). -/
def redBlocks (r : BitVec 1024) (blocks : List (BitVec 3072)) (bit : Bool) : Chk :=
  let b := blocks.headD 0
  if bit then some (0x10, 0) else
  match checkBlk b with
  | some x => some x
  | none =>
    if dOpc r = 4 then
      let e := streamE b 3
      if e.mode = 1 && e.fmt = rdOut r && e.layout = 0 then none else some (0x20, 2 ^ 31 + 20)
    else none

/-- The sums a recipe names. -/
def recipeSums (b : BitVec 3072) : List Nat :=
  (List.range 4).filter (fun i => (opWords b).any (fun w => wOpc w == 0x40 && wImm w == i))

/-- Address fields of the streams of a recipe over `n` elements. -/
def redStreams (r : BitVec 1024) (b : BitVec 3072) : List AField :=
  ((List.range 4).filter (fun k => (streamE b k).mode ≠ 0 && !(dOpc r == 4 && k == 3))).map (fun k =>
    { at_ := if k = 3 then 64 else 88, va := redStreamVa r k, len := streamLen b k (rdN r), write := (streamE b k).mode ≥ 2 })

/-- Address fields of a Reduce descriptor. -/
def redFields (r : BitVec 1024) (blocks : List (BitVec 3072)) : List AField :=
  let n := rdN r
  let rcp : List AField := if rdSel r = 0 then [{ at_ := 56, va := db r 56 8, len := 384, write := false }] else []
  let known := rdSel r ≠ 0 || !blocks.isEmpty
  let b := redRecipe r blocks
  let result : AField := { at_ := 32, va := rdResult r, len := arrayLen (rdOut r) n, write := true }
  let srcs : List AField := (List.range (rdCount r)).map (fun k =>
    { at_ := 64, va := rdSrc r + k * rdStride r, len := arrayLen (rdIn r) n, write := false })
  match dOpc r with
  | 1 | 2 => result :: srcs
  | 3 => result :: srcs ++ [{ at_ := 88, va := rdAux r, len := arrayLen (rdOut r) n, write := true }]
  | 4 => rcp ++ (if known then result :: srcs ++ redStreams r b else [])
  | _ => rcp ++ (if known then
      (if (recipeSums b).isEmpty then [] else
        [{ at_ := 32, va := rdResult r, len := 4 * ((recipeSums b).foldl max 0 + 1), write := true }]) ++ redStreams r b else [])

/-- Every RESULT element is homed on a participant of the group (R278): tested page by page. -/
def redHomed (r : BitVec 1024) (c : Comp) (runs : List Run) : Chk :=
  let coll := dOpc r = 2 || dOpc r = 3 || dOpc r = 4
  if !coll then none else
  let len := arrayBytes (rdOut r) (rdN r)
  let pages := List.range ((rdResult r + len - 1) / 4096 - rdResult r / 4096 + 1)
  let ok := pages.all (fun i =>
    match homeAt c runs (max (rdResult r) ((rdResult r / 4096 + i) * 4096)) with
    | some (n, _) => (memberIndex c n).any (fun m => (rdGroup r).contains m)
    | none => false)
  if ok then none else some (0x20, 32)

end Sys2Proof.Machine
end

