-- ==== Sys2Proof/Machine/CheckGather.lean ====
section
/-! DEFINITION. The Gather engine's descriptors (chapter 12): their fields, their checks (R311, R312) and their address
fields. -/

namespace Sys2Proof.Machine

/-- LAYOUT: KIND, COMB, IDX64, WEIGHTED, PAD_QUIET. -/
def gaKind (r : BitVec 1024) : Nat := bitsOf (db r 12 1) 0 2
/-- See `gaKind`. -/
def gaComb (r : BitVec 1024) : Nat := bitsOf (db r 12 1) 2 2
/-- See `gaKind`. -/
def gaIdx64 (r : BitVec 1024) : Bool := bitAt (db r 12 1) 4
/-- See `gaKind`. -/
def gaWeighted (r : BitVec 1024) : Bool := bitAt (db r 12 1) 5
/-- See `gaKind`. -/
def gaPadQuiet (r : BitVec 1024) : Bool := bitAt (db r 12 1) 6
/-- TBL_FMT, OUT_FMT, RND, D, OP, RSEL. -/
def gaTbl (r : BitVec 1024) : Nat := db r 13 1
/-- See `gaTbl`. -/
def gaOut (r : BitVec 1024) : Nat := db r 14 1
/-- See `gaTbl`. -/
def gaRnd (r : BitVec 1024) : Nat := db r 15 1
/-- See `gaTbl`. -/
def gaD (r : BitVec 1024) : Nat := db r 16 2
/-- See `gaTbl`. -/
def gaOp (r : BitVec 1024) : Nat := db r 18 1
/-- See `gaTbl`. -/
def gaSel (r : BitVec 1024) : Nat := db r 19 1
/-- ROWS, N, the table bases and strides. -/
def gaRows (r : BitVec 1024) (b : Bool) : Nat := if b then db r 64 4 else db r 20 4
/-- See `gaRows`. -/
def gaN (r : BitVec 1024) : Nat := db r 24 8
/-- See `gaRows`. -/
def gaTable (r : BitVec 1024) (b : Bool) : Nat := if b then db r 56 8 else db r 32 8
/-- See `gaRows`. -/
def gaStride (r : BitVec 1024) (b : Bool) : Nat := if b then db r 68 4 else db r 52 4
/-- SEED, STEP. -/
def gaSeed (r : BitVec 1024) : Nat := db r 40 8
/-- See `gaSeed`. -/
def gaStep (r : BitVec 1024) : Nat := db r 48 4
/-- The arrays: indices, weights, output or gradient rows and their stride, offsets, S1 and S2. -/
def gaIdxVa (r : BitVec 1024) : Nat := db r 72 8
/-- See `gaIdxVa`. -/
def gaWgtVa (r : BitVec 1024) : Nat := db r 80 8
/-- See `gaIdxVa`. -/
def gaOutVa (r : BitVec 1024) : Nat := db r 88 8
/-- See `gaIdxVa`. -/
def gaOutStride (r : BitVec 1024) : Nat := db r 96 4
/-- See `gaIdxVa`. -/
def gaBags (r : BitVec 1024) : Nat := db r 100 4
/-- See `gaIdxVa`. -/
def gaOffVa (r : BitVec 1024) : Nat := db r 104 8
/-- See `gaIdxVa`. -/
def gaAuxVa (r : BitVec 1024) : Nat := db r 112 8
/-- See `gaIdxVa`. -/
def gaAuxStride (r : BitVec 1024) : Nat := db r 120 4
/-- See `gaIdxVa`. -/
def gaAuxGap (r : BitVec 1024) : Nat := db r 124 4 * 2 ^ 20
/-- Index width in bytes. -/
def gaWidth (r : BitVec 1024) : Nat := if gaIdx64 r then 8 else 4
/-- Elements of a table row (D, or half of it under CONCAT). -/
def gaRowD (r : BitVec 1024) : Nat := if gaKind r = 2 && gaComb r = 2 then gaD r / 2 else gaD r
/-- Bytes of a table row (R306). -/
def gaRowBytes (r : BitVec 1024) : Nat :=
  let n := (gaRowD r * fmtBits (gaTbl r) + 7) / 8
  if gaTbl r ≥ 0x06 then (n + 3) / 4 * 4 + 8 else n
/-- The command updates by a recipe. -/
def gaRecipe (r : BitVec 1024) : Bool := dOpc r == 3 && gaOp r == 1

/-- Fields each command leaves unused (R310). -/
def gaUnused (r : BitVec 1024) : List (Nat × Nat) :=
  (match dOpc r with
   | 1 => [(18, 1), (19, 1), (100, 4), (104, 8), (112, 8), (120, 4), (124, 4)]
   | 2 => [(19, 1), (112, 8), (120, 4), (124, 4)]
   | 3 => if gaOp r = 1 then [(100, 4)] else [(19, 1), (100, 4), (104, 8), (112, 8), (120, 4), (124, 4)]
   | _ => [(14, 1), (15, 1), (18, 1), (19, 1), (40, 8), (48, 4), (96, 4), (100, 4), (112, 8), (120, 4), (124, 4)])
  ++ (if gaKind r = 0 then [(56, 8)] else []) ++ (if gaKind r = 2 then [] else [(64, 4), (68, 4)])
  ++ (if gaWeighted r then [] else [(80, 8)])

/-- The recipe in force for SCATTER_MERGE: the built-in placed, or the block that was read after the parameter block. -/
def gaBlock (r : BitVec 1024) (blocks : List (BitVec 3072)) : BitVec 3072 :=
  if gaSel r = 0 then blocks.getD 1 0 else placed ((builtin (gaSel r)).getD 0) (gaOut r)

/-- An update block of a row is at most 16 KiB (R312). -/
def gaUndoOk (r : BitVec 1024) (b : BitVec 3072) : Bool :=
  gaD r * (((List.range 4).filter (fun k => (streamE b k).mode = 3)).map (fun k => streamBytes (streamE b k))).sum ≤ 16384

/-- A built-in's S0 fits the table (R249, R318). -/
def gaBuiltinOk (r : BitVec 1024) : Chk :=
  let e := streamE ((builtin (gaSel r)).getD 0) 0
  if e.mode ≠ 3 then some (0x20, 2 ^ 31 + 8) else if e.fmt ≠ gaTbl r then some (0x20, 2 ^ 31 + 9) else none

/-- The checks of R312. -/
def checkGather (r : BitVec 1024) (_c : Comp) (acc : Nat) (_s : State) : Chk :=
  let o := dOpc r
  let comp := gaKind r = 2
  let aligned (off : Nat) (used : Bool) : Chk := wellField (!used || db r off 8 % 4 = 0) off
  firstFail [
    wellField (dExt r) 2,
    wellField (gaKind r ≤ 2 && gaComb r ≤ 2) 12,
    option acc 115 (gaKind r == 1) 12, option acc 116 comp 12,
    fmtField ((1 ≤ gaTbl r && gaTbl r ≤ 5) || (o ≠ 3 && (gaTbl r = 6 || gaTbl r = 7))) (gaTbl r) 13,
    option acc 117 (gaTbl r == 6 || gaTbl r == 7) 13,
    if o = 4 then none else firstFail [fmtField (1 ≤ gaOut r && gaOut r ≤ 5) (gaOut r) 14, wellField (gaRnd r ≤ 2) 15],
    if o = 2 then wellField (gaOp r ≤ 2) 18 else if o = 3 then wellField (gaOp r ≤ 1) 18 else none,
    if gaRecipe r then firstFail [wellField (gaSel r = 0 || (builtin (gaSel r)).isSome) 19, option acc 118 (gaSel r == 0) 19] else none,
    must (bitAt (db r 12 1) 7 = false && (comp || gaComb r = 0)) 0x21 12,
    zeros r (gaUnused r),
    if o = 4 then must (bitsOf (gaOutVa r) 56 8 = 0) 0x21 88 else none,
    wellField (1 ≤ gaD r && gaD r ≤ 2048 && !(comp && gaComb r = 2 && gaD r % 2 = 1)) 16,
    wellField (1 ≤ gaRows r false) 20, wellField (1 ≤ gaN r && gaN r < 2 ^ 32) 24,
    aligned 32 true,
    wellField (gaStride r false ≥ gaRowBytes r && gaStride r false % 4 = 0) 52,
    aligned 56 comp,
    if comp then firstFail [wellField (1 ≤ gaRows r true) 64, wellField (gaStride r true ≥ gaRowBytes r && gaStride r true % 4 = 0) 68]
      else none,
    aligned 72 true, aligned 80 (gaWeighted r),
    if o = 4 then wellField (gaOutVa r % 4096 = 0) 88 else aligned 88 true,
    if o = 4 then none else wellField (gaOutStride r % 4 = 0 && gaOutStride r ≥ gaD r * (fmtBits (gaOut r) / 8)) 96,
    if o = 2 then wellField (1 ≤ gaBags r) 100 else none,
    if o = 2 then aligned 104 true else if gaRecipe r then wellField (gaOffVa r % 64 = 0) 104
      else if o = 4 then wellField (gaOffVa r ≠ 0 && gaOffVa r % 4096 = 0) 104 else none,
    aligned 112 (gaRecipe r),
    if o = 3 then firstFail [
      wellField (!(comp && gaComb r = 1)) 12, wellField (!(gaRecipe r && comp)) 18,
      if gaRecipe r && gaSel r ≠ 0 then firstFail [wellField (gaUndoOk r (gaBlock r [])) 16, gaBuiltinOk r] else none] else none]

/-- The block a descriptor still has to read: the parameter block, then the recipe. -/
def gaNext (r : BitVec 1024) (blocks : List (BitVec 3072)) : Option (Nat × Nat) :=
  if !gaRecipe r then none
  else match blocks with
    | [] => some (gaOffVa r, 64)
    | [p] => if gaSel r = 0 then some (blk p 0 8, 384) else none
    | _ => none

/-- The checks of a parameter block (R311). -/
def gaParam (r : BitVec 1024) (p : BitVec 3072) : Chk :=
  let va := blk p 0 8
  firstFail [
    must (gaSel r = 0 || va = 0) 0x21 (2 ^ 30), must (va % 64 = 0) 0x20 (2 ^ 30),
    (((List.range 24).map (· + 40)).find? (fun o => blk p o 1 ≠ 0)).map (fun o => (0x21, 2 ^ 30 + o))]

/-- The checks of a recipe's streams under SCATTER_MERGE (R318). -/
def gaStreams (r : BitVec 1024) (b : BitVec 3072) : Chk :=
  let e (k : Nat) := streamE b k
  let bad (c : Bool) (k : Nat) : Chk := if c then none else some (0x20, 2 ^ 31 + 8 + 4 * k)
  firstFail [
    bad ((e 0).mode = 3 && (e 0).fmt = gaTbl r && (e 0).layout = 0) 0, bad ((e 1).layout = 0) 1, bad ((e 2).layout = 0) 2,
    bad ((e 3).mode = 1 && (e 3).fmt = gaOut r && (e 3).layout = 0) 3, wellField (gaUndoOk r b) 16]

/-- The checks of the block read last. -/
def gaBlocks (r : BitVec 1024) (blocks : List (BitVec 3072)) (bit : Bool) : Chk :=
  if bit then some (0x10, 0) else
  match blocks with
  | [p] => gaParam r p
  | [_, b] => match checkBlk b with
    | some x => some x
    | none => gaStreams r b
  | _ => none

/-- Address fields (R312). -/
def gaFields (r : BitVec 1024) (blocks : List (BitVec 3072)) : List AField :=
  let o := dOpc r
  let f (off va len : Nat) (w : Bool) : AField := { at_ := off, va, len, write := w }
  let base := [f 32 (gaTable r false) (gaRows r false * gaStride r false) (o == 3)]
    ++ (if gaKind r = 2 then [f 56 (gaTable r true) (gaRows r true * gaStride r true) (o == 3)] else [])
    ++ [f 72 (gaIdxVa r) (gaN r * gaWidth r) false]
    ++ (if gaWeighted r then [f 80 (gaWgtVa r) (gaN r * 4) false] else [])
  match o with
  | 1 => base ++ [f 88 (gaOutVa r) (gaN r * gaOutStride r) true]
  | 2 => base ++ [f 88 (gaOutVa r) (gaBags r * gaOutStride r) true, f 104 (gaOffVa r) ((gaBags r + 1) * gaWidth r) false]
  | 3 =>
    let base := base ++ [f 88 (gaOutVa r) (gaN r * gaOutStride r) false]
    if !gaRecipe r then base else
    let base := base ++ [f 104 (gaOffVa r) 64 false]
    let base := match blocks with
      | p :: _ => if gaSel r = 0 then base ++ [f 104 (blk p 0 8) 384 false] else base
      | [] => base
    let known := !blocks.isEmpty && (gaSel r ≠ 0 || blocks.length ≥ 2)
    if !known then base else
    let b := gaBlock r blocks
    let aux (k va : Nat) : List AField :=
      if (streamE b k).mode = 0 then [] else [f 112 va (gaRows r false * gaAuxStride r) ((streamE b k).mode ≥ 2)]
    base ++ aux 1 (gaAuxVa r) ++ aux 2 (gaAuxVa r + gaAuxGap r)
  | _ => base

/-- Every page of a range is homed on a node. -/
def rangeHomed (c : Comp) (runs : List Run) (node va len : Nat) : Bool :=
  (List.range ((va + len - 1) / 4096 - va / 4096 + 1)).all (fun i =>
    (homeAt c runs (max va ((va / 4096 + i) * 4096))).any (fun h => h.1 == node))

/-- Checks that need the translation (R312). -/
def gaAfter (r : BitVec 1024) (c : Comp) (runs : List Run) (s : State) : Chk :=
  match dOpc r with
  | 3 =>
    let ok (b : Bool) : Bool := rangeHomed c runs (myNode s) (gaTable r b) (gaRows r b * gaStride r b)
    if ok false && (gaKind r ≠ 2 || ok true) then none else some (0x20, 32)
  | 4 =>
    let pa := gaOutVa r
    let last := pa + gaOffVa r - 1
    let near : Bool := match splitPa c pa, splitPa c last with
      | some (i, l), some (j, m) => i == j && c.members[i]? == some (myNode s) && l ≤ m && m < farWindow
      | _, _ => false
    if near && rangeBacked c pa (gaOffVa r) s then none else some (0x12, 88)
  | _ => none

end Sys2Proof.Machine
end

