-- ==== Sys2Proof/Machine/CheckMove.lean ====
section
/-! DEFINITION. The descriptors of the Move and Check engines (chapters 4, 5 and 15): their fields, their checks (R93,
R144, R373, R376) and their address fields. -/

namespace Sys2Proof.Machine

/-- ARG, SRC_VA, DST_VA, LENGTH, the field at 40, INIT (R372). -/
def mvArg (r : BitVec 1024) : Nat := db r 12 1
/-- See `mvArg`. -/
def mvSrc (r : BitVec 1024) : Nat := db r 16 8
/-- See `mvArg`. -/
def mvDst (r : BitVec 1024) : Nat := db r 24 8
/-- See `mvArg`. -/
def mvLen (r : BitVec 1024) : Nat := db r 32 8
/-- See `mvArg`. -/
def mvAux (r : BitVec 1024) : Nat := db r 40 8
/-- See `mvArg`. -/
def mvInit (r : BitVec 1024) : Nat := db r 48 8

/-- Bytes of a Check command's result (R380). -/
def resultLen (opc : Nat) : Nat := match opc with | 3 => 48 | 4 => 32 | _ => 8

/-- Records a HEAT_SNAPSHOT writes. -/
def heatCount (r : BitVec 1024) : Nat := mvLen r / frameBytes

/-- LENGTH is in range (R373, item 1). -/
def mvLenOk (r : BitVec 1024) : Chk := wellField (1 ≤ mvLen r && mvLen r ≤ 2 ^ 40) 32

/-- A field's alignment. -/
def alignedAt (r : BitVec 1024) (off n : Nat) : Chk := wellField (db r off 8 % n = 0) off

/-- The checks of Move OPC 0x01 to 0x06 (R372, R373). -/
def checkMove1 (r : BitVec 1024) : Chk :=
  let used (l : List (Nat × Nat)) : Chk := zeros r (l ++ [(13, 3), (48, 16)])
  match dOpc r with
  | 1 => firstFail [used [(12, 1), (16, 8)], mvLenOk r]
  | 2 => firstFail [used [(12, 1), (40, 8)], mvLenOk r]
  | 3 | 4 => firstFail [used [(12, 1), (24, 8)], must (bitsOf (mvAux r) 56 8 = 0) 0x21 40, mvLenOk r,
      alignedAt r 16 4096, alignedAt r 32 4096, alignedAt r 40 4096]
  | 5 => firstFail [used [(24, 8), (40, 8)], mvLenOk r, wellField (mvArg r ≤ 5) 12,
      if mvArg r = 4 then firstFail [alignedAt r 16 4096, alignedAt r 32 4096] else none]
  | _ => firstFail [used [(12, 1), (16, 8)], mvLenOk r, wellField (mvLen r % frameBytes = 0) 32, alignedAt r 40 frameBytes,
      alignedAt r 24 8]

/-- The fields a harvest command leaves unused (R93). -/
def hvUnused (opc : Nat) : List (Nat × Nat) :=
  (match opc with
   | 0x40 => [(12, 2), (32, 4), (40, 8)]
   | 0x41 => [(12, 2), (14, 1), (24, 8), (32, 4)]
   | 0x42 => [(12, 2), (14, 1), (24, 8)]
   | 0x43 => [(14, 1), (24, 8), (32, 4), (40, 8)]
   | 0x44 => [(12, 2), (14, 1), (24, 8), (40, 8)]
   | _ => [(12, 2), (14, 1), (24, 8), (32, 4), (40, 8)])
  ++ [(15, 1), (36, 4), (48, 16)]

/-- Step 9 of the Move engine. The checks of R94 run at the home. -/
def checkMove (r : BitVec 1024) : Chk :=
  let o := dOpc r
  if o ≤ 6 then checkMove1 r
  else if o ≤ 0x45 then
    firstFail [zeros r (hvUnused o), must (bitsOf (db r 16 8) 56 8 = 0) 0x21 16,
      if o = 0x41 || o = 0x42 then alignedAt r 40 8 else none]
  else
    let len := db r 24 8
    firstFail [zeros r [(12, 4), (32, 32)], alignedAt r 16 64, wellField (0 < len && len % 64 = 0 && len ≤ 2 ^ 24) 24]

/-- Step 9 of the Check engine. -/
def checkCheck (r : BitVec 1024) : Chk :=
  let used (l : List (Nat × Nat)) : Chk := zeros r (l ++ [(13, 3), (56, 8)])
  match dOpc r with
  | 1 => firstFail [used [(12, 1), (48, 8)], mvLenOk r, alignedAt r 40 8]
  | 2 => firstFail [used [(24, 8)], mvLenOk r, wellField (mvArg r ≤ 1) 12, alignedAt r 40 8]
  | 3 => firstFail [used [(24, 8), (48, 8)], mvLenOk r, wellField (mvArg r ≤ 1) 12, alignedAt r 40 64]
  | _ => firstFail [used [(12, 1), (24, 8), (48, 8)], mvLenOk r, alignedAt r 40 64]

/-- Address fields of the Move engine. -/
def moveFields (r : BitVec 1024) : List AField :=
  let f (off len : Nat) (w : Bool) : AField := { at_ := off, va := db r off 8, len, write := w }
  match dOpc r with
  | 1 => [f 24 (mvLen r) true]
  | 2 => [f 16 (mvLen r) false, f 24 (mvLen r) true]
  | 3 | 4 => [f 16 (mvLen r) false]
  | 5 => [f 16 (mvLen r) (mvArg r == 4)]
  | 6 => [f 24 (heatCount r * 8) true]
  | 0x41 | 0x42 => [f 40 8 true]
  | 0x48 | 0x49 => [f 16 (db r 24 8) false]
  | _ => []

/-- Address fields of the Check engine. -/
def checkFields (r : BitVec 1024) : List AField :=
  let f (off len : Nat) (w : Bool) : AField := { at_ := off, va := db r off 8, len, write := w }
  [f 16 (mvLen r) false] ++ (if dOpc r = 1 then [f 24 (mvLen r) false] else []) ++ [f 40 (resultLen (dOpc r)) true]

/-! ### Checks that need the translation -/

/-- Two targets of `m` and `n` bytes share a byte. -/
def sharesByte (a : Target) (m : Nat) (b : Target) (n : Nat) : Bool :=
  match a, b with
  | .pool x, .pool y => x < y + n && y < x + m
  | .host g x, .host h y => g == h && x < y + n && y < x + m
  | _, _ => false

/-- The source and the destination of a COPY share a byte (R374). -/
def copyOverlaps (runs : List Run) : Bool :=
  runs.any (fun a => a.field == 0 && runs.any (fun b => b.field == 1 && sharesByte a.target a.len b.target b.len))

/-- Every run of a field maps pool memory. -/
def allPool (runs : List Run) (field : Nat) : Bool :=
  runs.all (fun r => r.field != field || (match r.target with | .pool _ => true | _ => false))

/-- Leaves of a range whose leaf at an address `leafOf` gives: address and size of each, from `va` on. A leaf that
cannot be found counts as a 4 KiB page. -/
def leavesFrom (leafOf : Nat → Option (Nat × Nat)) (stop : Nat) : Nat → Nat → List (Nat × Nat)
  | 0, _ => []
  | n + 1, va =>
    if va ≥ stop then [] else
    let (b, size) := (leafOf va).getD (va / 4096 * 4096, 4096)
    (b, size) :: leavesFrom leafOf stop n (b + size)

/-- MIGRATE and PREFETCH (R376): leaf types, leaves wholly inside, the alignment of the destination. -/
def moveAfter (r : BitVec 1024) (runs : List Run) (leafOf : Nat → Option (Nat × Nat)) : Chk :=
  match dOpc r with
  | 2 => must (!copyOverlaps runs) 0x20 24
  | 3 | 4 =>
    let ls := leavesFrom leafOf (mvSrc r + mvLen r) (mvLen r / 4096 + 1) (mvSrc r)
    firstFail [
      must (allPool runs 0) 0x12 0,
      must (ls.all (fun l => l.2 < 2 ^ 30 && mvSrc r ≤ l.1 && l.1 + l.2 ≤ mvSrc r + mvLen r)) 0x20 16,
      must (ls.all (fun l => (mvAux r + (l.1 - mvSrc r)) % l.2 = 0)) 0x20 40]
  | _ => none

end Sys2Proof.Machine
end

