-- ==== Sys2Proof/Machine/CheckRake.lean ====
section
/-! DEFINITION. The descriptors of the Rake and Attend engines (chapters 13 and 14): their fields, their checks (R335,
R359) and their address fields. -/

namespace Sys2Proof.Machine

/-! ### Rake -/

/-- MODE: BUDGET, CENTROID, FILTER, FULL_RERANK, ALL_BINS. -/
def raBudget (r : BitVec 1024) : Bool := bitAt (db r 12 1) 0
/-- See `raBudget`. -/
def raCentroid (r : BitVec 1024) : Bool := bitAt (db r 12 1) 1
/-- See `raBudget`. -/
def raFilter (r : BitVec 1024) : Bool := bitAt (db r 12 1) 2
/-- See `raBudget`. -/
def raFull (r : BitVec 1024) : Bool := bitAt (db r 12 1) 3
/-- See `raBudget`. -/
def raAllBins (r : BitVec 1024) : Bool := bitAt (db r 12 1) 4
/-- SK_CODE, and bytes of a sketch (R331). -/
def raCode (r : BitVec 1024) : Nat := db r 13 1
/-- See `raCode`. -/
def raSkBytes (r : BitVec 1024) : Nat := 32 * 2 ^ raCode r
/-- METRIC, VEC_FMT, D, K, RERANK, NPROBE, NBINS, NQ or ITEMS. -/
def raMetric (r : BitVec 1024) : Nat := db r 14 1
/-- See `raMetric`. -/
def raFmt (r : BitVec 1024) : Nat := db r 15 1
/-- See `raMetric`. -/
def raD (r : BitVec 1024) : Nat := db r 16 2
/-- See `raMetric`. -/
def raK (r : BitVec 1024) : Nat := db r 18 2
/-- See `raMetric`. -/
def raRerank (r : BitVec 1024) : Nat := db r 20 2
/-- See `raMetric`. -/
def raProbe (r : BitVec 1024) : Nat := db r 22 2
/-- See `raMetric`. -/
def raBins (r : BitVec 1024) : Nat := db r 24 4
/-- See `raMetric`. -/
def raN (r : BitVec 1024) : Nat := db r 28 4
/-- The address fields, and the rows and strides. -/
def raSrcVa (r : BitVec 1024) : Nat := db r 32 8
/-- See `raSrcVa`. -/
def raResVa (r : BitVec 1024) : Nat := db r 40 8
/-- See `raSrcVa`. -/
def raTblVa (r : BitVec 1024) : Nat := db r 48 8
/-- See `raSrcVa`. -/
def raArena (r : BitVec 1024) : Nat := db r 56 8
/-- See `raSrcVa`. -/
def raArenaLen (r : BitVec 1024) : Nat := db r 64 8
/-- See `raSrcVa`. -/
def raVecVa (r : BitVec 1024) : Nat := db r 72 8
/-- See `raSrcVa`. -/
def raVecRows (r : BitVec 1024) : Nat := db r 80 8
/-- See `raSrcVa`. -/
def raCentVa (r : BitVec 1024) : Nat := db r 88 8
/-- See `raSrcVa`. -/
def raFiltVa (r : BitVec 1024) : Nat := db r 96 8
/-- See `raSrcVa`. -/
def raFiltLen (r : BitVec 1024) : Nat := db r 104 8
/-- See `raSrcVa`. -/
def raVecStride (r : BitVec 1024) : Nat := db r 112 4
/-- See `raSrcVa`. -/
def raCentStride (r : BitVec 1024) : Nat := db r 116 4
/-- See `raSrcVa`. -/
def raBin (r : BitVec 1024) : Nat := db r 124 4
/-- Bytes of a vector row's elements. -/
def raRowBytes (r : BitVec 1024) : Nat := raD r * (fmtBits (raFmt r) / 8)
/-- A length padded to whole lines. -/
def pad64 (n : Nat) : Nat := (n + 63) / 64 * 64
/-- The probe list is in the query record (R332). -/
def raListed (r : BitVec 1024) : Bool := !raCentroid r && !raAllBins r
/-- Bytes of a query record. -/
def raQrec (r : BitVec 1024) : Nat := pad64 (raSkBytes r) + pad64 (4 * raD r) + (if raListed r then pad64 (4 * raProbe r) else 0)
/-- Bytes of a result record (R333). -/
def raRrec (r : BitVec 1024) : Nat := pad64 (16 + 16 * raK r)
/-- Candidates a query may have. -/
def raL (r : BitVec 1024) : Nat := if raFull r then raK r else raRerank r
/-- Bytes of the items of an APPEND: sketches, then IDs. -/
def raIdsAt (r : BitVec 1024) : Nat := (raN r * raSkBytes r + 255) / 256 * 256

/-- Fields each command leaves unused (R334). -/
def raUnused (r : BitVec 1024) : List (Nat × Nat) :=
  if dOpc r = 1 then
    (if raCentroid r then [] else [(88, 8)]) ++ (if raFilter r then [] else [(96, 8), (104, 8)])
    ++ (if raCentroid r then [] else [(116, 4)]) ++ (if raBudget r then [] else [(120, 4)]) ++ [(124, 4)]
  else [(12, 1), (14, 1), (15, 1), (16, 2), (18, 2), (20, 2), (22, 2), (40, 8), (72, 8), (80, 8), (88, 8), (96, 8), (104, 8),
    (112, 4), (116, 4), (120, 4)]

/-- The candidate entries a descriptor may use: 2^CAND_SHARE_LOG2 (R352). -/
def candShare (s : State) : Nat :=
  let v := ((s.img.engine[0x102]?).map (·.toNat)).getD 0
  2 ^ (if v = 0 then 22 else if v < 16 then 16 else min v 24)

/-- The ranges and alignments of R335, item 4. -/
def raRanges (r : BitVec 1024) : Chk :=
  let search := dOpc r == 1
  let aligned (off n : Nat) : Chk := wellField (db r off 8 % n = 0) off
  let stride (v off : Nat) : Chk := wellField (v % 4 = 0 && v ≥ raRowBytes r) off
  let onlyS (c : Bool) (off : Nat) : Chk := wellField (!search || c) off
  firstFail [
    onlyS (1 ≤ raD r && raD r ≤ 4096) 16, onlyS (1 ≤ raK r && raK r ≤ 1024) 18,
    onlyS (if raFull r then raRerank r == 0 else raK r ≤ raRerank r && raRerank r ≤ 2048) 20,
    onlyS (if raAllBins r then raProbe r == 0 else 1 ≤ raProbe r && raProbe r ≤ 4096) 22,
    wellField (1 ≤ raBins r && raBins r ≤ 2 ^ 24) 24,
    wellField (1 ≤ raN r && raN r ≤ (if search then 1024 else 65536)) 28,
    aligned 32 (if search then 64 else if dOpc r = 2 then 8 else 4),
    if search then aligned 40 64 else none,
    aligned 48 32, aligned 56 256, aligned 64 256,
    if search then firstFail [
      aligned 72 4, wellField (1 ≤ raVecRows r && raVecRows r ≤ 2 ^ 48) 80,
      if raCentroid r then aligned 88 4 else none,
      if raFilter r then firstFail [aligned 96 4, wellField (1 ≤ raFiltLen r && raFiltLen r ≤ 2 ^ 48) 104] else none,
      stride (raVecStride r) 112,
      if raCentroid r then stride (raCentStride r) 116 else none,
      if raBudget r then wellField (1 ≤ db r 120 4 && db r 120 4 ≤ 1000000) 120 else none]
    else wellField (raBin r < raBins r) 124]

/-- The checks of R335. -/
def checkRake (r : BitVec 1024) (acc : Nat) (s : State) : Chk :=
  let search := dOpc r == 1
  firstFail [
    wellField (dExt r) 2,
    if search then firstFail [
      option acc 128 (raCentroid r) 12, option acc 129 (raFilter r) 12, option acc 130 (raBudget r) 12,
      option acc 132 (raFull r || raAllBins r) 12, wellField (!(raAllBins r && raCentroid r)) 12] else none,
    wellField (raCode r ≤ 3) 13,
    if search then firstFail [
      wellField (raMetric r ≤ 1) 14, fmtField (1 ≤ raFmt r && raFmt r ≤ 5) (raFmt r) 15,
      must (bitsOf (db r 12 1) 5 3 = 0) 0x21 12] else none,
    zeros r (raUnused r),
    raRanges r,
    wellField (!search || raN r * raL r + raL r ≤ candShare s) 28]

/-- Address fields (R336). -/
def raFields (r : BitVec 1024) : List AField :=
  let f (off va len : Nat) (w : Bool) : AField := { at_ := off, va, len, write := w }
  match dOpc r with
  | 1 => [f 32 (raSrcVa r) (raN r * raQrec r) false, f 40 (raResVa r) (raN r * raRrec r) true,
      f 48 (raTblVa r) (raBins r * 32) false, f 56 (raArena r) (raArenaLen r) false,
      f 72 (raVecVa r) (raVecRows r * raVecStride r) false]
      ++ (if raCentroid r then [f 88 (raCentVa r) (raBins r * raCentStride r) false] else [])
      ++ (if raFilter r then [f 96 (raFiltVa r) ((raFiltLen r + 7) / 8) false] else [])
  | 2 => [f 32 (raSrcVa r) (raIdsAt r + 8 * raN r) false, f 48 (raTblVa r) (raBins r * 32) true,
      f 56 (raArena r) (raArenaLen r) true]
  | _ => [f 32 (raSrcVa r) (4 * raN r) false, f 48 (raTblVa r) (raBins r * 32) false, f 56 (raArena r) (raArenaLen r) true]

/-- The node that homes the byte at a virtual address, in the pool or through a view. -/
def runNode (c : Comp) (runs : List Run) (va : Nat) : Option Nat :=
  match runAt runs va with
  | some (.pool a, _) => (splitPa c a).bind (fun x => c.members[x.1]?)
  | some (.view m _ _, _) => c.members[m]?
  | _ => none

/-- Every byte of the arena is homed on this member (R335). -/
def raAfter (r : BitVec 1024) (c : Comp) (runs : List Run) (s : State) : Chk :=
  let va := raArena r
  let len := raArenaLen r
  let pages := if len = 0 then 0 else (va + len - 1) / 4096 - va / 4096 + 1
  must ((List.range pages).all (fun i => runNode c runs (max va ((va / 4096 + i) * 4096)) == some (myNode s))) 0x20 56

/-! ### Attend -/

/-- MODE: FAST and LSE. -/
def atFast (r : BitVec 1024) : Bool := bitAt (db r 12 1) 0
/-- See `atFast`. -/
def atLse (r : BitVec 1024) : Bool := bitAt (db r 12 1) 1
/-- KV_FMT, OUT_FMT, RND, DH, HQ, HKV, BT, NSEQ, NBLOCKS. -/
def atKv (r : BitVec 1024) : Nat := db r 13 1
/-- See `atKv`. -/
def atOut (r : BitVec 1024) : Nat := db r 14 1
/-- See `atKv`. -/
def atRnd (r : BitVec 1024) : Nat := db r 15 1
/-- See `atKv`. -/
def atDh (r : BitVec 1024) : Nat := db r 16 2
/-- See `atKv`. -/
def atHq (r : BitVec 1024) : Nat := db r 18 2
/-- See `atKv`. -/
def atHkv (r : BitVec 1024) : Nat := db r 20 2
/-- See `atKv`. -/
def atBt (r : BitVec 1024) : Nat := db r 22 2
/-- See `atKv`. -/
def atSeqs (r : BitVec 1024) : Nat := db r 24 4
/-- See `atKv`. -/
def atBlocks (r : BitVec 1024) : Nat := db r 28 4
/-- The tables, the generator, SCALE, queries, outputs and LSE pairs. -/
def atSeqVa (r : BitVec 1024) : Nat := db r 32 8
/-- See `atSeqVa`. -/
def atSeed (r : BitVec 1024) : Nat := db r 40 8
/-- See `atSeqVa`. -/
def atStep (r : BitVec 1024) : Nat := db r 48 4
/-- See `atSeqVa`. -/
def atScale (r : BitVec 1024) : Nat := db r 52 4
/-- See `atSeqVa`. -/
def atKvVa (r : BitVec 1024) : Nat := db r 56 8
/-- See `atSeqVa`. -/
def atBtabVa (r : BitVec 1024) : Nat := db r 64 8
/-- See `atSeqVa`. -/
def atBtabLen (r : BitVec 1024) : Nat := db r 72 4
/-- See `atSeqVa`. -/
def atQueryVa (r : BitVec 1024) : Nat := db r 80 8
/-- See `atSeqVa`. -/
def atOutVa (r : BitVec 1024) : Nat := db r 88 8
/-- See `atSeqVa`. -/
def atLseVa (r : BitVec 1024) : Nat := db r 96 8

/-- Bytes of a row's elements, and of the row (R355). -/
def atElemBytes (r : BitVec 1024) : Nat := atDh r * fmtBits (atKv r) / 8
/-- See `atElemBytes`. -/
def atRb (r : BitVec 1024) : Nat := atElemBytes r + (if isMx (atKv r) then atDh r / 32 else 0)
/-- The chunk width: a power of two from 64 to 256. -/
def atCw (r : BitVec 1024) : Nat := if atRb r ≤ 64 then 64 else if atRb r ≤ 128 then 128 else 256
/-- Chunks of a row. -/
def atC (r : BitVec 1024) : Nat := (atRb r + atCw r - 1) / atCw r
/-- Blocks per slab. -/
def atQ (r : BitVec 1024) : Nat := 2 ^ 20 / atCw r
/-- Bytes of a slab. -/
def atSlab (r : BitVec 1024) : Nat := 2 * atHkv r * atBt r * atC r * 2 ^ 20
/-- Strides of query and output rows (R357). -/
def atQrow (r : BitVec 1024) : Nat := pad64 (4 * atDh r)
/-- See `atQrow`. -/
def atOrow (r : BitVec 1024) : Nat := pad64 (atDh r * (fmtBits (atOut r) / 8))

/-- The checks of R359. -/
def checkAttend (r : BitVec 1024) (acc : Nat) : Chk :=
  let mx := isMx (atKv r)
  let kvOk := (1 ≤ atKv r && atKv r ≤ 5) || atKv r == 0x10 || atKv r == 0x11 || atKv r == 0x14
  let aligned (off n : Nat) : Chk := wellField (db r off 8 % n = 0) off
  firstFail [
    wellField (dExt r) 2,
    option acc 144 (atFast r) 12, option acc 145 (atLse r) 12,
    fmtField kvOk (atKv r) 13, option acc 146 mx 13,
    fmtField (1 ≤ atOut r && atOut r ≤ 3) (atOut r) 14, wellField (atRnd r ≤ 2) 15,
    wellField ([16, 32, 64, 128, 256].contains (atBt r)) 22,
    must (bitsOf (db r 12 1) 2 6 = 0) 0x21 12,
    zeros r ([(76, 4)] ++ (if atLse r then [] else [(96, 8)]) ++ [(104, 24)]),
    wellField (16 ≤ atDh r && atDh r ≤ 512 && atDh r % (if mx then 32 else 16) = 0) 16,
    wellField (1 ≤ atHq r && atHq r ≤ 256) 18,
    wellField (1 ≤ atHkv r && atHkv r ≤ atHq r && atHq r % atHkv r = 0) 20,
    wellField (1 ≤ atSeqs r && atSeqs r ≤ 4096) 24, wellField (1 ≤ atBlocks r) 28,
    aligned 32 4, aligned 56 (2 ^ 20), aligned 64 4, wellField (1 ≤ atBtabLen r) 72, aligned 80 64, aligned 88 64,
    if atLse r then aligned 96 8 else none]

/-- Address fields (R359). -/
def atFields (r : BitVec 1024) : List AField :=
  let f (off va len : Nat) (w : Bool) : AField := { at_ := off, va, len, write := w }
  let heads := atSeqs r * atHq r
  [f 32 (atSeqVa r) (atSeqs r * 16) false, f 56 (atKvVa r) ((atBlocks r + atQ r - 1) / atQ r * atSlab r) false,
   f 64 (atBtabVa r) (atBtabLen r * 4) false, f 80 (atQueryVa r) (heads * atQrow r) false,
   f 88 (atOutVa r) (heads * atOrow r) true]
  ++ (if atLse r then [f 96 (atLseVa r) (heads * 8) true] else [])

end Sys2Proof.Machine
end

