-- ==== Sys2Proof/Machine/Checks.lean ====
section
/-! DEFINITION. The engines' part of a descriptor, by engine (steps 6, 8, 9 and 10 of R185). -/

namespace Sys2Proof.Machine

/-- The OPC is defined for the engine (step 6). -/
def opcKnown (eng opc : Nat) : Bool :=
  match eng with
  | 0 => (1 ≤ opc && opc ≤ 6) || (0x40 ≤ opc && opc ≤ 0x45) || opc == 0x48 || opc == 0x49
  | 1 => 1 ≤ opc && opc ≤ 4
  | 2 => 1 ≤ opc && opc ≤ 5
  | 3 => 1 ≤ opc && opc ≤ 4
  | 4 => 1 ≤ opc && opc ≤ 3
  | _ => opc == 1

/-- The feature bit of an OPC (step 8). -/
def opcFeat (eng opc : Nat) : Option Nat :=
  if eng = 0 && opc ≥ 0x40 then some (if opc ≥ 0x48 then 8 else 7) else
  match eng, opc with
  | 0, 3 => some 64 | 0, 4 => some 64 | 0, 5 => some 65 | 0, 6 => some 66
  | 1, 3 => some 80 | 1, 4 => some 81
  | 2, 2 => some 96 | 2, 3 => some 96 | 2, 4 => some 97
  | 3, 2 => some 112 | 3, 3 => some 113 | 3, 4 => some 114
  | 4, 2 => some 131 | 4, 3 => some 131
  | _, _ => none

/-- Step 9. -/
def checkEng (raw : BitVec 1024) (c : Comp) (acc : Nat) (s : State) : Chk :=
  match dEng raw with
  | 0 => checkMove raw
  | 1 => checkCheck raw
  | 2 => checkReduce raw c acc s
  | 3 => checkGather raw c acc s
  | 4 => checkRake raw acc s
  | _ => checkAttend raw acc

/-- The address fields, as far as the blocks read so far give their ranges (step 10). -/
def fieldsOf (raw : BitVec 1024) (blocks : List (BitVec 3072)) : List AField :=
  match dEng raw with
  | 0 => moveFields raw
  | 1 => checkFields raw
  | 2 => redFields raw blocks
  | 3 => gaFields raw blocks
  | 4 => raFields raw
  | _ => atFields raw

/-- The block still to be read: its address and length. -/
def nextBlock (raw : BitVec 1024) (blocks : List (BitVec 3072)) : Option (Nat × Nat) :=
  match dEng raw with
  | 2 => redNext raw blocks
  | 3 => gaNext raw blocks
  | _ => none

/-- The checks of the block read last. -/
def checkBlocks (raw : BitVec 1024) (blocks : List (BitVec 3072)) (bit : Bool) (_acc : Nat) : Chk :=
  match dEng raw with
  | 2 => redBlocks raw blocks bit
  | 3 => gaBlocks raw blocks bit
  | _ => none

/-- Checks that need the translation: `leafOf` gives the leaf (base and size) that maps an address. -/
def afterXlate (raw : BitVec 1024) (c : Comp) (_blocks : List (BitVec 3072)) (runs : List Run)
    (leafOf : Nat → Option (Nat × Nat)) (s : State) : Chk :=
  match dEng raw with
  | 0 => moveAfter raw runs leafOf
  | 1 => must (dOpc raw ≠ 4 || allPool runs 0) 0x12 16
  | 2 => redHomed raw c runs
  | 3 => gaAfter raw c runs s
  | 4 => raAfter raw c runs s
  | _ => none

end Sys2Proof.Machine
end

