-- ==== Sys2Proof/Machine/Irq.lean ====
section
/-! DEFINITION. Sluices: their interrupts (R197, R198), errors of their rings (R184), job stops (R113). -/

namespace Sys2Proof.Machine

/-- What a sluice holds beside its registers. -/
def sluiceOf (k : Nat) (s : State) : Sluice := kgetD s.slc.sluices k {}

/-- Change it. -/
def setSluice (k : Nat) (x : Sluice) (s : State) : State :=
  { s with slc := { s.slc with sluices := kset s.slc.sluices k x {} } }

/-- Ring sizes. -/
def sqSize (k : Nat) (s : State) : Nat := 2 ^ fget (SLC_CTL_SQ_LOG2 k) s
/-- See `sqSize`. -/
def cqSize (k : Nat) (s : State) : Nat := 2 ^ fget (SLC_CTL_CQ_LOG2 k) s

/-- The descriptor bytes of a ring slot whose first half has EXT. -/
def slotExt (x : BitVec 512) : Bool := bitAt x.toNat 16

/-- Descriptors in fetched slots. -/
def countDescs : List (BitVec 512) → Nat
  | [] => 0
  | [_] => 1
  | a :: b :: r => if slotExt a then 1 + countDescs r else 1 + countDescs (b :: r)

/-- IN_FLIGHT (R194): descriptors fetched and not completed. -/
def inFlight (k : Nat) (s : State) : Nat :=
  (s.slc.descs.filter (fun d => d.sluice == k)).length + countDescs (sluiceOf k s).part

/-- Keep IN_FLIGHT in step; a draining sluice with nothing in flight is DISABLED (R182). -/
def showFlight (k : Nat) (s : State) : State :=
  let n := inFlight k s
  let s := fset (SLC_STATUS_IN_FLIGHT k) n s
  if n = 0 && fget (SLC_STATUS_STATE k) s = 4 then s |> fset (SLC_STATUS_STATE k) 0 |> setSluice k {} else s

/-- A vector of a port belongs to a composition slot (R198). -/
def vecOk (port vector slot : Nat) (s : State) : Bool :=
  (fbit (PRT_AGENT_VALID port 0) s && fbit (PRT_AGENT_MATCH_ANY port 0) s && fget (PRT_AGENT_SLOT port 0) s == slot)
  || (fbit (PRT_AGENT_VALID port (vector / 128)) s && vector / 128 < 16 && fget (PRT_AGENT_SLOT port (vector / 128)) s == slot)

/-- Send the interrupt that is pending, if the sluice is armed (R197, R198). -/
def irqTry (k : Nat) (s : State) : State :=
  let x := sluiceOf k s
  if x.irqPending && fbit (SLC_IRQ_ARMED k) s && fget (SLC_IRQ_MODE k) s ≠ 0 then
    let port := fget (SLC_CTL_PORT k) s
    let v := fget (SLC_IRQ_VECTOR k) s
    match compOfSluice k s with
    | some c =>
      if vecOk port v c.slot s then
        s |> setSluice k { x with irqPending := false, unsignalled := 0, timer := false } |> fset (SLC_IRQ_ARMED k) 0
          |> emit (.msix port v)
      else fset (SLC_STATUS_IRQ_DROP_STK k) 1 s
    | none => s
  else s

/-- An event that may signal. -/
def irqEvent (k : Nat) (s : State) : State :=
  if fget (SLC_IRQ_MODE k) s = 0 then s
  else s |> setSluice k { sluiceOf k s with irqPending := true } |> irqTry k

/-- A record was written: whether it signals (R197). -/
def irqRecord (k status : Nat) (irq : Bool) (s : State) : State :=
  let x := sluiceOf k s
  let n := x.unsignalled + 1
  let mode := fget (SLC_IRQ_MODE k) s
  let s := setSluice k { x with unsignalled := n, timer := true } s
  let now := mode = 1 || (mode = 2 && n ≥ fget (SLC_IRQ_COUNT_THRESH k) s + 1) || irq
    || (fbit (SLC_IRQ_ERR_NOW k) s && status ≥ 0x10)
  if now then irqEvent k s else s

/-- A ring access failed: the sluice enters ERROR (R184, R182). -/
def ringError (k : Nat) (s : State) : State :=
  let st := fget (SLC_STATUS_STATE k) s
  let s := fset (SLC_STATUS_RING_ERR_STK k) 1 s
  if st = 1 || st = 2 then s |> fset (SLC_STATUS_STATE k) 3 |> irqEvent k else s

/-- Keep STOPPED of CMP_JOB_CTL in step. -/
def showStopped (slot : Nat) (s : State) : State :=
  match compAt slot s with
  | none => s
  | some c =>
    let job := fget (CMP_JOB_CTL_JOB slot) s
    let on := s.slc.sluices.any (fun e => c.sluiceFirst ≤ e.1 && e.1 < c.sluiceFirst + c.sluiceCount
      && fget (SLC_STATUS_STATE e.1) s == 2 && fget (SLC_CTL_JOB e.1) s == job)
    fsetb (CMP_JOB_CTL_STOPPED slot) on s

/-- A sluice stops (R113): what runs stops at its next commit, what has not started completes with nothing done. -/
def stopSluice (k : Nat) (s : State) : State :=
  if fget (SLC_STATUS_STATE k) s ≠ 1 then s else
  let s := fset (SLC_STATUS_STATE k) 2 s
  let s := setSluice k { sluiceOf k s with fetching := none } s
  each (s.slc.descs.filter (fun d => d.sluice == k)) (fun d s =>
    modDesc d.id (fun d =>
      if d.phase == .finished || d.phase == .skipped then d
      else if d.started then { d with phase := .finished, status := 0x10 }
      else { d with phase := .finished, status := 0x10, bytes := 0, runs := [] }) s) s

/-- Every sluice of a composition's job on this Slosin stops. -/
def stopJob (slot job : Nat) (s : State) : State :=
  match compAt slot s with
  | none => s
  | some c =>
    let ks := (s.slc.sluices.map (·.1)).filter (fun k => c.sluiceFirst ≤ k && k < c.sluiceFirst + c.sluiceCount
      && fget (SLC_CTL_JOB k) s == job)
    s |> each ks stopSluice |> showStopped slot

/-- Consumption on a sluice (R113): job 0 stops only the sluice, any other job is stopped on every member. The JobStop
packet names the job in its TAG (assumption 17). -/
def consumedOn (k : Nat) (s : State) : State :=
  match compOfSluice k s with
  | none => s
  | some c =>
    let job := fget (SLC_CTL_JOB k) s
    if job = 0 then s |> stopSluice k |> showStopped c.slot
    else
      s |> stopJob c.slot job
        |> each (c.members.filter (· != myNode s)) (fun n s => send 0x82 n c.cmpId job 0 0 [] false s)

/-- RESUME restarts every stopped sluice of JOB (R114). -/
def resumeJob (slot job : Nat) (s : State) : State :=
  match compAt slot s with
  | none => s
  | some c =>
    let ks := (s.slc.sluices.map (·.1)).filter (fun k => c.sluiceFirst ≤ k && k < c.sluiceFirst + c.sluiceCount
      && fget (SLC_CTL_JOB k) s == job && fget (SLC_STATUS_STATE k) s == 2)
    s |> each ks (fun k => fset (SLC_STATUS_STATE k) 1) |> showStopped slot

end Sys2Proof.Machine
end

