-- ==== Sys2Proof/Machine/Fabric.lean ====
section
/-! DEFINITION. The pool fabric (chapter 6): flits and their retry, audits, link loss and reconciliation, route changes,
completions and Naks, bulk transfers, incarnations, heartbeats and node loss. -/

namespace Sys2Proof.Machine

/-! ### Events to the master -/

/-- The 32 bytes of an event record as two slots (R522). -/
def eventSlots (e : EventRec) : List (BitVec 128) :=
  let n := e.code + e.severity * 2 ^ 16 + e.half * 2 ^ 24 + e.seq % 2 ^ 64 * 2 ^ 32 + e.time % 2 ^ 64 * 2 ^ 96
    + e.cmpId * 2 ^ 160 + e.unit * 2 ^ 176 + e.data % 2 ^ 64 * 2 ^ 192
  [BitVec.ofNat 128 n, BitVec.ofNat 128 (n / 2 ^ 128)]

/-- This Slosin is the master. -/
def isMaster (s : State) : Bool := fbit FAB_NODE_MASTER s

/-- Raise an event and relay it to the master (PoolEvent, kind 0; assumption 12). -/
def eventToMaster (code cmpId unit data : Nat) (s : State) : State :=
  let s := event code cmpId unit data s
  if isMaster s || !fbit FAB_NODE_JOINED s then s else
  match s.mgt.events.getLast? with
  | some e => send 0x88 (fget FAB_FORM_MASTER_NODE s) cmpId 0 0 0 (eventSlots e) false s
  | none => s

/-! ### Taking packets out of slots (R153) -/

/-- The complete packets at the front of a slot list, and the slots of one that goes on. `fuel` is the list's length. -/
def takePkts : Nat → List (BitVec 128) → List Pkt × List (BitVec 128)
  | 0, l => ([], l)
  | _, [] => ([], [])
  | n + 1, a :: r =>
    let len := (readHdr a 0).pktLen.toNat
    if len = 0 then takePkts n r
    else if len > 18 then
      let (ps, x) := takePkts n r
      (⟨readHdr a 0, []⟩ :: ps, x)
    else if (a :: r).length < len then ([], a :: r)
    else
      let (ps, x) := takePkts n ((a :: r).drop len)
      (readPkt ((a :: r).take len) :: ps, x)

/-! ### Sending past a hold -/

/-- Send on the entry's route whatever holds stand (R170 step 4, fences). -/
def routePast (k : Pkt) (s : State) : State :=
  if k.hdr.dst.toNat = myNode s then toInbox k s else
  match routePort k.hdr s with
  | some p => sendOn p k s
  | none => s |> finc (FAB_EVENT_CNT 4) |> ownNoRoute k

/-- Release the packets held for a node when nothing is waited for any more (R163, R170). -/
def releaseHeld (node : Nat) (s : State) : State :=
  match s.fab.held.find? (fun h => h.node == node) with
  | some h =>
    if h.fences = 0 && h.ports.isEmpty then
      each h.pkts route { s with fab := { s.fab with held := s.fab.held.filter (fun x => x.node != node) } }
    else s
  | none => s

/-- A port is waited for no longer. -/
def releasePort (p : Nat) (s : State) : State :=
  let nodes := (s.fab.held.filter (fun h => h.ports.contains p)).map (·.node)
  let s := { s with fab := { s.fab with held := s.fab.held.map (fun h => { h with ports := h.ports.filter (· != p) }) } }
  each nodes releaseHeld s

/-- Hold new packets to a node. -/
def holdNode (node fences : Nat) (ports : List Nat) (s : State) : State :=
  if s.fab.held.any (fun h => h.node == node) then
    { s with fab := { s.fab with held := s.fab.held.map (fun h =>
        if h.node == node then { h with fences := h.fences + fences, ports := h.ports ++ ports } else h) } }
  else { s with fab := { s.fab with held := s.fab.held ++ [{ node, fences, ports }] } }

/-! ### Link loss (R152, R170, R171) -/

/-- The far end of a port: node and port (R37). -/
def neighbourOf (p : Nat) (s : State) : Option (Nat × Nat) := s.img.neighbours[p]?

/-- The packets of a link that were not acknowledged or not sent. -/
def linkPkts (fs : List (Nat × List (BitVec 128))) : List Pkt :=
  let l := fs.flatMap (·.2)
  (takePkts (l.length + 1) l).1

/-- The far end is treated as lost (R171): unacknowledged packets are discarded, each Request, Forward and Bulk packet
answered with Nak PATH_LOST to its source. -/
def linkLost (p : Nat) (s : State) : State :=
  let l := linkOf p s
  let ks := linkPkts l.replay ++ l.queue
  let s := setLink p { l with replay := [], queue := [], reconciling := false } s
  let s := each ks (fun k s =>
    if k.hdr.vc = 0 || k.hdr.vc = 1 || k.hdr.vc = 3 then s |> finc (FAB_EVENT_CNT 3) |> sendNak k.hdr 3 else s) s
  releasePort p s

/-- Route entries whose primary is a port. -/
def routesOn (p : Nat) (s : State) : List Nat :=
  (List.range 4096).filter (fun d => fbit (FAB_ROUTE_PRIM_VALID d) s && fget (FAB_ROUTE_PRIMARY d) s == p)

/-- A fabric port goes down (R170): alternates come into use, new packets to those nodes are held, Reconcile is sent on
the alternate route; without an alternate the far end is lost. With `reconcile` = false a failed credit audit took the
port down (R160). The Reconcile's OPARG holds the last SEQ received and the far end's port (assumption 17). -/
def linkDown (p : Nat) (reconcile : Bool) (s : State) : State :=
  let l := linkOf p s
  if l.down || fget (PRT_STATUS_ROLE p) s ≠ 3 then s else
  let s := s |> setLink p { l with down := true, reconciling := true, nakSent := false } |> portDown p
    |> finc (FAB_EVENT_CNT 1) |> fset FAB_STATUS_LINK_DOWN_STK 1
  let ds := routesOn p s
  let s := each ds (fun d s =>
    if fbit (FAB_ROUTE_ALT_VALID d) s then s |> fset (FAB_ROUTE_USE_ALT d) 1 |> holdNode d 0 [p] else s) s
  let s := match neighbourOf p s with
    | some (n, q) =>
      if reconcile && fbit (FAB_ROUTE_ALT_VALID n) s then
        routePast (mkPkt 0x86 n 0 0 0 (l.rxSeq + q * 2 ^ 16) [] false 2 s) s
      else linkLost p s
    | none => linkLost p s
  eventToMaster 0x0023 0 p 0 s

/-- Flits of the replay buffer after a SEQ. -/
def after (q : Nat) (fs : List (Nat × List (BitVec 128))) : List (Nat × List (BitVec 128)) :=
  if fs.any (fun f => f.1 == q) then (fs.dropWhile (fun f => f.1 != q)).drop 1 else fs

/-- Reconcile arrives (R170 steps 4 and 5): what the far end lacks is sent on the new routes ahead of the held packets. -/
def onReconcile (p : Nat) (h : Hdr) (s : State) : State :=
  let s := linkDown p true s
  let l := linkOf p s
  if !l.reconciling then s else
  let lost := linkPkts (after (h.oparg.toNat % 4096) l.replay)
  s |> setLink p { l with replay := [], queue := [], reconciling := false }
    |> each (lost ++ l.queue) routePast
    |> finc (FAB_EVENT_CNT 2) |> releasePort p

/-! ### Flits (R149, R151, R152) -/

/-- A flit passes its checks: FEC, CRC, reserved bits, type. -/
def flitOk (raw : BitVec 2048) (fecOk : Bool) : Bool :=
  let n := raw.toNat
  fecOk && bitsOf n 1984 64 == crc64 (natLe 248 (n % 2 ^ 1984)) && bitsOf n 24 4 < 4 && bitsOf n 52 12 == 0

/-- The flit's slots. -/
def flitSlots (raw : BitVec 2048) : List (BitVec 128) :=
  (List.range 15).map (fun i => BitVec.ofNat 128 (raw.toNat / 2 ^ (64 + 128 * i)))

/-- Take slots off a list of pools, first pool first. -/
def giveSlots : Nat → List Nat → List Nat
  | _, [] => []
  | n, a :: r => (a - n) :: giveSlots (n - a) r

/-- Take what an intact flit's header says: ACK and credit returns (R149, R157). Which channel a shared slot was held by
is not in the header: the lowest channel that holds one (assumption 16). -/
def takeHeader (p : Nat) (raw : BitVec 2048) (s : State) : State :=
  let n := raw.toNat
  let l := linkOf p s
  let ack := bitsOf n 12 12
  let back := bitsOf n 28 12
  let k := bitsOf n 40 3 * 8 + bitsOf n 43 3
  let cnt := bitsOf n 46 6
  let replay := if l.replay.any (fun f => f.1 == ack) then after ack l.replay else l.replay
  s |> setLink p { l with replay, shared := giveSlots back l.shared,
                          reserved := kset l.reserved k (kgetD l.reserved k 0 - cnt) 0, backSince := l.backSince + back + cnt }
    |> drainQueue p (l.queue.length + 1)

/-- Send a NAK flit: its ACK names the last good SEQ (R151). NAK and AUDIT flits carry the next number without consuming
it, as IDLE flits do (assumption 16). -/
def sendNakFlit (p : Nat) (s : State) : State :=
  let l := linkOf p s
  s |> setLink p { l with nakSent := true } |> emit (.flit p (mkFlit l.txSeq l.rxSeq 2 0 []))

/-- A flit that fails its checks, or is out of order (R151). While a lost lane is rebuilt no NAK is sent (R398). -/
def badFlit (p : Nat) (s : State) : State :=
  let s := finc (FAB_EVENT_CNT 0) s
  if kmem s.prt.rebuilding p then s else sendNakFlit p s

/-- The port receives flits. -/
def receives (p : Nat) (s : State) : Bool :=
  fget (PRT_STATUS_ROLE p) s == 3 && fbit (PRT_STATUS_LINK_UP p) s && !(linkOf p s).down

/-- A packet leaves the receiver: its slots' credits return, and it goes where its checks send it. The port that a discovery
report arrived on is recorded (R539). -/
def takePkt (p : Nat) (k : Pkt) (s : State) : State :=
  let l := linkOf p s
  let s := setLink p { l with giveBack := l.giveBack + min k.hdr.pktLen.toNat 18 } s
  let s := if k.hdr.opc = 0x88 && bitsOf k.hdr.oparg.toNat 12 4 == 3 then
      { s with fab := { s.fab with reporters := kput s.fab.reporters k.hdr.src.toNat p } } else s
  match judge k.hdr s with
  | .deliver => toInbox k s
  | a => undelivered a k s

/-- The type of a flit. -/
def flitType (raw : BitVec 2048) : Nat := bitsOf raw.toNat 24 4

/-- A DATA flit. -/
def dataFlit (p : Nat) (raw : BitVec 2048) (fecOk : Bool) (s : State) : State :=
  if !receives p s then s
  else if !flitOk raw fecOk || flitType raw ≠ 1 then badFlit p s else
  let l := linkOf p s
  let seq := bitsOf raw.toNat 0 12
  if seq ≠ (l.rxSeq + 1) % 4096 then (if l.nakSent then s else badFlit p s) else
  let slots := l.rxPart ++ flitSlots raw
  let (ks, rest) := takePkts (slots.length + 1) slots
  s |> setLink p { l with rxSeq := seq, rxPart := rest, nakSent := false } |> takeHeader p raw |> each ks (takePkt p)

/-- An IDLE flit (R152): it carries the next number. -/
def idleFlit (p : Nat) (raw : BitVec 2048) (fecOk : Bool) (s : State) : State :=
  if !receives p s then s
  else if !flitOk raw fecOk || flitType raw ≠ 0 then badFlit p s else
  let l := linkOf p s
  if bitsOf raw.toNat 0 12 ≠ (l.rxSeq + 1) % 4096 then (if l.nakSent then s else badFlit p s)
  else takeHeader p raw s

/-- A NAK flit (R151): resend from the SEQ after the one it names, or give the port up when retries are exhausted. -/
def nakFlit (p : Nat) (raw : BitVec 2048) (fecOk : Bool) (s : State) : State :=
  if !receives p s then s
  else if !flitOk raw fecOk || flitType raw ≠ 2 then badFlit p s else
  let ack := bitsOf raw.toNat 12 12
  let s := s |> takeHeader p raw |> finc (FAB_EVENT_CNT 0)
  let l := linkOf p s
  let run := if l.nakSeq = (ack + 1) % 4096 && l.nakRun > 0 then l.nakRun + 1 else 1
  let s := setLink p { l with nakSeq := (ack + 1) % 4096, nakRun := run, nakMs := l.nakMs + 1 } s
  if run ≥ 16 || l.nakMs + 1 ≥ 256 then linkDown p true s
  else each l.replay (fun f s => emit (.flit p (mkFlit f.1 (linkOf p s).rxSeq 1 0 f.2)) s) s

/-- The size of credit pool `i` (R156): 0 shared, then reserved by channel and hop class. -/
def poolSize (i : Nat) : Nat := if i = 0 then 5864 else reservedSize ((i - 1) / 8)

/-- An AUDIT flit (R160): `sums` gives, for each pool, the sum the far end's counts and ours make. -/
def auditFlit (p : Nat) (raw : BitVec 2048) (fecOk : Bool) (sums : List (Fin 41 × Nat)) (s : State) : State :=
  if !receives p s then s
  else if !flitOk raw fecOk || flitType raw ≠ 3 then badFlit p s
  else if sums.all (fun x => x.2 == poolSize x.1) then takeHeader p raw s
  else
    s |> fset FAB_STATUS_AUDIT_STK 1 |> fset RAS_STATUS_AUDIT_STK 1 |> fset RAS_STATUS_AUDIT_CODE 1
      |> eventD 0x0044 0 1 |> linkDown p false

/-- AUDIT_FLIT_TIMER (R160): the layout of an audit's counts is not stated, so its slots are free values. -/
def auditTimer (p : Nat) (s : State) : State :=
  if !receives p s then s else
  let (x, s) := takeFree 1920 s
  let l := linkOf p s
  let slots := (List.range 15).map (fun i => BitVec.ofNat 128 (x.toNat / 2 ^ (128 * i)))
  s |> setLink p { l with sentSince := 0, backSince := 0, nakMs := 0 }
    |> emit (.flit p (mkFlit l.txSeq l.rxSeq 3 0 slots))

/-! ### Route changes (R163) -/

/-- The ports that packets to a node leave on, the bulk ways among them. -/
def portsTo (d : Nat) (s : State) : List Nat :=
  if fbit (FAB_ROUTE_USE_ALT d) s && fbit (FAB_ROUTE_ALT_VALID d) s then [fget (FAB_ROUTE_ALTERNATE d) s]
  else if fbit (FAB_ROUTE_PRIM_VALID d) s then
    let ways := match fget (FAB_ROUTE_BULK_WAYS d) s with | 1 => 2 | 2 => 4 | _ => 1
    [fget (FAB_ROUTE_PRIMARY d) s, fget (FAB_ROUTE_BULK_PORT1 d) s, fget (FAB_ROUTE_BULK_PORT2 d) s,
     fget (FAB_ROUTE_BULK_PORT3 d) s].take ways
  else []

/-- A Fence packet of a virtual channel to a node. -/
def fencePkt (opc d : Nat) (s : State) : Pkt := mkPkt opc d 0 0 0 0 [] false 1 s

/-- After a write to FAB_ROUTE_d: when the output ports changed, new packets are held and fences go down the old ones, a
Bulk fence on every way. Reconciliation takes the place of fences on a port that is down. -/
def routeChanged (d : Nat) (old : List Nat) (s : State) : State :=
  match old with
  | [] => s
  | p :: _ =>
    if portsTo d s = old || d = myNode s then s
    else if (linkOf p s).down then
      if (linkOf p s).reconciling then holdNode d 0 [p] s else s
    else
      let s := holdNode d (3 + old.length) [] s
      let s := each [0x0F, 0x2F, 0x4F] (fun o s => sendOn p (fencePkt o d s) s) s
      each old (fun q s => sendOn q (fencePkt 0x6F d s) s) s

/-! ### Ends of transactions -/

/-- A host request that was relayed ends without an answer of its home (R27, R63, R87, R467). -/
def relayFailed (port entry hpa kind reason : Nat) (s : State) : State :=
  let write := kind = 3
  let n := if write then 5 else if reason = 4 then 4 else 6
  s |> finc (PRT_EVENT_CNT port n) |> hostComplete port entry hpa (if write then 3 else 2) 0 (!write)

/-- The filter's request ends: its line is I again, and the tiles that waited are let go. -/
def filterFailed (slot line : Nat) (s : State) : State :=
  let f := getFilt slot line s
  let s := each f.wait (fun w s => setCopy w.1 slot line { getCopy w.1 slot line s with st := .i, pend := [] } s) s
  setFilt slot line { f with up := .i, tag := 0, wait := [], data := none, dirty := false, dir := {} } s

/-- The status a Nak's reason ends a descriptor with (R166). -/
def nakStatus (reason : Nat) : Nat := match reason with | 4 => 0x12 | 5 => 0x3F | _ => 0x13

/-- A lower-tier access is over; `status` 0 for success (R86, R87). -/
def accessOver (id status : Nat) (s : State) : State :=
  match s.mem.tier.find? (fun a => a.id == id) with
  | none => s
  | some a =>
    let s := { s with mem := { s.mem with tier := s.mem.tier.filter (fun x => x.id != id) } }
    if status = 0 then s
    else modDesc a.desc (fun d => if d.status ≥ 0x10 || d.phase == .skipped then d else { d with phase := .finished, status }) s

/-- The transaction of a tag fails with a Nak's reason (R166), or because its node is unreachable (R172). A read or plain
write whose path was lost is sent again. -/
def failTag (tag reason : Nat) (s : State) : State :=
  match kget? s.fab.tags tag with
  | none => s
  | some t =>
    let again : Bool := reason == 3 && (match t.pkt with
      | some k => k.hdr.opc != 0x0A && k.hdr.opc != 0x0C
      | none => false)
    if again then
      match t.pkt with
      | some k => route k s
      | none => s
    else match t.use with
      | .filter slot line => s |> freeTag tag |> filterFailed slot line
      | .home _ _ => s
      | .relay p e hpa k => s |> freeTag tag |> relayFailed p e hpa k reason
      | .tileOp t slot line k =>
        let s := freeTag tag s
        if k = 3 then setCopy t slot line { getCopy t slot line s with st := .i, pend := [] } s else s
      | .access id => s |> freeTag tag |> accessOver id (nakStatus reason)
      | .record k => s |> freeTag tag |> ringError k
      | .engine d => s |> freeTag tag |> endWork d (nakStatus reason)
      | .inval d _ _ => s |> freeTag tag |> invalFailed d

/-- A Nak (R166). -/
def onNak (h : Hdr) (s : State) : State := failTag h.tag.toNat h.reason.toNat s

/-- WrCmp: the completion of a home write (R164). -/
def onWrCmp (h : Hdr) (s : State) : State :=
  let tag := h.tag.toNat
  match kget? s.fab.tags tag with
  | some ⟨_, .tileOp .., _⟩ => freeTag tag s
  | some ⟨_, .relay p e hpa k, _⟩ => s |> freeTag tag |> hostComplete p e hpa k 0 false
  | some ⟨_, .access id, _⟩ => s |> freeTag tag |> accessOver id 0
  | some ⟨_, .record _, _⟩ => freeTag tag s
  | _ => s

/-- AtomData: the old value goes to the tile whose atomic it was. -/
def onAtomData (k : Pkt) (s : State) : State :=
  let tag := k.hdr.tag.toNat
  match kget? s.fab.tags tag with
  | some ⟨_, .tileOp t slot line _, _⟩ =>
    s |> freeTag tag |> emit (.toTile t 0x4B slot line .home (BitVec.ofNat 512 (slotsNat k.body)) k.hdr.bittern)
  | some ⟨_, .access id, _⟩ => s |> freeTag tag |> accessOver id 0
  | _ => s

/-- CurData: the data of an RdCur. -/
def onCurData (k : Pkt) (s : State) : State :=
  let tag := k.hdr.tag.toNat
  match kget? s.fab.tags tag with
  | some ⟨_, .tileOp t slot line _, _⟩ =>
    s |> freeTag tag |> fillCur t slot line (slotsLine k.body) k.hdr.bittern
      |> emit (.toTile t 0x4C slot line .home (slotsLine k.body) k.hdr.bittern)
  | some ⟨_, .relay p e hpa kd, _⟩ => relayDone 0x4C p e hpa kd tag (slotsLine k.body) k.hdr.bittern s
  | some ⟨_, .access id, _⟩ => s |> freeTag tag |> accessOver id 0
  | _ => s

/-- BulkData: the data of a piece's bulk read has landed. -/
def onBulkData (k : Pkt) (s : State) : State :=
  let tag := k.hdr.tag.toNat
  match kget? s.fab.tags tag with
  | some ⟨_, .access id, _⟩ => s |> freeTag tag |> accessOver id 0
  | _ => s

/-! ### Bulk transfers at the home (R164) -/

/-- A bulk read or write of 1 to 4 lines within one 256-byte unit. -/
def bulkHome (isWrite : Bool) (k : Pkt) (s : State) : State :=
  let h := k.hdr
  match compById h.cmpId.toNat s with
  | none => sendNak h 4 s
  | some c =>
    if c.state = .failed then sendNak h 5 s else
    let o := h.oparg.toNat
    let n := (if isWrite then bitsOf o 4 2 else bitsOf o 0 2) + 1
    let line := h.pa.toNat / 64
    let backed := (List.range n).all (fun i => match homeOf c ((line + i) * 64) s with | .here (.at_ _) => true | _ => false)
    if !backed then s |> finc (CMP_UNBACKED_CNT c.slot) |> sendNak h 4 else
    let id := s.coh.births
    let b : Bulk := { id, node := h.src.toNat, tag := h.tag.toNat, slot := c.slot, line, isWrite, lines := List.replicate n none }
    let s := { s with coh := { s.coh with bulks := s.coh.bulks ++ [b], births := id + 1 } }
    each (List.range n) (fun i s =>
      if isWrite then
        submit c.slot (line + i) { kind := .write, reply := .bulk id i, poison := bitAt o i, remote := true,
                                   op := .write (slotsLine (k.body.drop (4 * i))) (BitVec.allOnes 64) } s
      else submit c.slot (line + i) { kind := .rdCur, reply := .bulk id i, remote := true } s) s

/-! ### Nodes (R172, R173) -/

/-- Set the incarnation of a node (R173, R547): UNREACHABLE clears. -/
def setIncarnation (node inc : Nat) (s : State) : State :=
  let s := s |> fset (peerIncFld node) inc |> fset (FAB_ROUTE_UNREACHABLE node) 0
  if node = myNode s then fset FAB_NODE_INCARNATION inc s else s

/-- Copies and filter entries of lines homed on a node are dropped with any dirty data (R172). -/
def dropHomedOn (node : Nat) (s : State) : State :=
  let away (k : Nat) : Bool := homeNode (k / 2 ^ 50) (k % 2 ^ 50) s == some node
  { s with coh := { s.coh with
      filter := kkeep s.coh.filter (fun k => !away k),
      copies := kkeep s.coh.copies (fun k => !(homeNode (k / 2 ^ 50 % 64) (k % 2 ^ 50) s == some node)) } }

/-- A node is unreachable (R172). -/
def nodeLost (node : Nat) (s : State) : State :=
  if node = myNode s then s else
  let s := fset (FAB_ROUTE_UNREACHABLE node) 1 s
  let tags := (s.fab.tags.filter (fun t => t.2.node == node)).map (·.1)
  let s := each tags (fun t s => failTag t 2 s) s
  let gone := (s.mem.tier.filter (fun a => match a.tier with | .peer n => n.toNat == node | _ => false)).map (·.id)
  let s := each gone (fun id s => accessOver id 0x13 s) s
  let s := each s.comps (fun c s =>
    match memberIndex c node with
    | some i =>
      let hosts := ((s.coh.routes.filter (fun r => r.1 / 256 == c.slot && r.2 == node)).map (fun r => r.1 % 256))
      each hosts (fun a s => agentLost c.slot (.host a) s) (agentLost c.slot (.peer i) s)
    | none => s) s
  dropHomedOn node s

/-- Broadcast a packet of this Slosin to every node with a valid route. -/
def broadcast (f : Nat → State → State) (s : State) : State :=
  each ((List.range 4096).filter (fun d => d != myNode s && fbit (FAB_ROUTE_PRIM_VALID d) s && !fbit (FAB_ROUTE_UNREACHABLE d) s)) f s

/-- The node a NodeDown packet names: its TAG (assumption 17). -/
def sendNodeDown (node : Nat) (s : State) : State := broadcast (fun d s => if d = node then s else send 0x84 d 0 node 0 0 [] false s) s

/-- The master's count of joined nodes: those with an incarnation that are not unreachable. -/
def showNodes (s : State) : State :=
  let n := ((List.range 4096).filter (fun d => fget (peerIncFld d) s ≠ 0 && !fbit (FAB_ROUTE_UNREACHABLE d) s)).length
  fset FAB_FORM_NODES (if isMaster s then n else 0) s

/-- The master declares a node unreachable (R172). -/
def declareDown (node : Nat) (s : State) : State :=
  s |> sendNodeDown node |> nodeLost node |> eventF 0x0026 0 |> showNodes
    |> fun s => { s with fab := { s.fab with missed := kdel s.fab.missed node } }

/-- The end of a hot-line window (R169). -/
def hotWindow (s : State) : State :=
  let n := s.fab.hotDepth
  let slot := s.fab.hotKey / 2 ^ 50
  let s := s |> fset FAB_HOTLINE_ADDR_LINE (if n = 0 then 0 else s.fab.hotKey % 2 ^ 50)
    |> fset FAB_HOTLINE_INFO_CMP_ID (if n ≥ 32 then cmpIdOf slot s else 0) |> fset FAB_HOTLINE_INFO_DEPTH n
  let now := s.coh.dir.foldl (fun m e => if e.2.queue.length > m.2 then (e.1, e.2.queue.length) else m) (0, 0)
  { s with fab := { s.fab with hotKey := now.1, hotDepth := now.2 } }

/-! ### The commands -/

/-- DATA_FLIT (R151). -/
def execDataFlit (p : Fin 24) (raw : BitVec 2048) (fec : Bool) (s : State) := ok (dataFlit p raw fec s)
/-- IDLE_FLIT (R152). -/
def execIdleFlit (p : Fin 24) (raw : BitVec 2048) (fec : Bool) (s : State) := ok (idleFlit p raw fec s)
/-- NAK_FLIT (R151). -/
def execNakFlit (p : Fin 24) (raw : BitVec 2048) (fec : Bool) (s : State) := ok (nakFlit p raw fec s)
/-- AUDIT_FLIT (R160). -/
def execAuditFlit (p : Fin 24) (raw : BitVec 2048) (fec : Bool) (sums : List (Fin 41 × Nat)) (s : State) :=
  ok (auditFlit p raw fec sums s)
/-- AUDIT_FLIT_TIMER (R160). -/
def execAuditFlitTimer (p : Fin 24) (s : State) := ok (auditTimer p s)
/-- LINK_SILENCE (R152). -/
def execLinkSilence (p : Fin 24) (s : State) := ok (if receives p s then linkDown p true s else s)
/-- RECONCILE (R170). -/
def execReconcile (p : Fin 24) (h : Hdr) (s : State) := ok (onHdr 0x86 h (onReconcile p h) s)
/-- RECONCILE_TIMEOUT (R171). -/
def execReconcileTimeout (p : Fin 24) (s : State) := ok (if (linkOf p s).reconciling then linkLost p s else s)
/-- BULK_RD (R164). -/
def execBulkRd (h : Hdr) (s : State) := ok (onHdr 0x0B h (bulkHome false ⟨h, []⟩) s)
/-- BULK_WR (R164). -/
def execBulkWr (k : Pkt) (s : State) := ok (onArrival 0x60 k (bulkHome true k) s)
/-- BULK_DATA (R164). -/
def execBulkData (k : Pkt) (s : State) := ok (onArrival 0x61 k (onBulkData k) s)
/-- WR_CMP (R164). -/
def execWrCmp (h : Hdr) (s : State) := ok (onHdr 0x4A h (onWrCmp h) s)
/-- ATOM_DATA (R165). -/
def execAtomData (k : Pkt) (s : State) := ok (onArrival 0x4B k (onAtomData k) s)
/-- CUR_DATA (R164). -/
def execCurData (k : Pkt) (s : State) := ok (onArrival 0x4C k (onCurData k) s)
/-- NAK (R166). -/
def execNak (h : Hdr) (s : State) := ok (onHdr 0x4D h (onNak h) s)
/-- FENCE (R163): the earlier packets of its channel have been delivered before it. -/
def execFence (h : Hdr) (s : State) :=
  let o := h.opc.toNat
  ok (if [0x0F, 0x2F, 0x4F, 0x6F].contains o then
    onHdr o h (fun s => send 0x87 h.src.toNat 0 h.tag.toNat 0 0 [] false s) s else s)
/-- FENCE_ACK (R163). -/
def execFenceAck (h : Hdr) (s : State) :=
  ok (onHdr 0x87 h (fun s =>
    let n := h.src.toNat
    releaseHeld n { s with fab := { s.fab with held := s.fab.held.map (fun x =>
      if x.node == n then { x with fences := x.fences - 1 } else x) } }) s)
/-- INCARNATION (R173): OPARG [11:0] the node, [31:16] its incarnation (assumption 17). -/
def execIncarnation (h : Hdr) (s : State) :=
  ok (onHdr 0x85 h (setIncarnation (h.oparg.toNat % 4096) (bitsOf h.oparg.toNat 16 16)) s)
/-- HEARTBEAT (R172). -/
def execHeartbeat (h : Hdr) (s : State) :=
  ok (onHdr 0x83 h (fun s => { s with fab := { s.fab with missed := kdel s.fab.missed h.src.toNat } }) s)
/-- HEARTBEAT_SEND (R172, R518): to the master, and from the master to the standby master. -/
def execHeartbeatSend (s : State) :=
  let dst := if isMaster s then fget FAB_FORM_STANDBY_NODE s else fget FAB_FORM_MASTER_NODE s
  ok (if fbit FAB_NODE_JOINED s && dst != myNode s then send 0x83 dst 0 0 0 0 [] false s else s)
/-- HOTLINE_WINDOW_END (R169). -/
def execHotlineWindowEnd (s : State) := ok (hotWindow s)
/-- MANAGEMENT_RESEND (R158). -/
def execManagementResend (s : State) :=
  ok (each s.fab.resend toInbox { s with fab := { s.fab with resend := [] } })

end Sys2Proof.Machine
end

