-- ==== Sys2Proof/Machine/Xlate.lean ====
section
/-! DEFINITION. Address translation (chapter 8): table walks, the TLB, runs, faults, ASIDs and invalidations. -/

namespace Sys2Proof.Machine

/-! ### Reading a line without taking a copy -/

/-- What a read of a line finds (RdCur, R125). -/
inductive Peek where
  | data (l : Line) (bittern : Bool)
  /-- Its value is not here: another member homes it, or a peer or host owns it. -/
  | away
  | failed
  | unbacked
  deriving DecidableEq, Repr

/-- Read a line of a composition. -/
def peekLine (c : Comp) (line : Nat) (s : State) : Peek :=
  match homeOf c (line * 64) s with
  | .here (.at_ p) =>
    if !tierUp p s then .failed else
    match (getDir c.slot line s).owner with
    | some (.tile t) =>
      let k := getCopy t c.slot line s
      .data k.data k.bittern
    | some _ => .away
    | none => .data (if isWritten (p / 4096) s then cellLine (p / 64) s else 0) (isBittern (p / 64) s)
  | .here .unallotted => .failed
  | .member _ n => if fbit (FAB_ROUTE_UNREACHABLE n) s then .failed else .away
  | _ => .unbacked

/-! ### Walks (R204 to R211) -/

/-- What a walk of one page ends with. -/
inductive Walk where
  | leaf (e : TlbEnt)
  | fault (reason level : Nat)
  deriving DecidableEq, Repr

/-- A read without a copy of a line homed here that a host or a peer owns passes through the directory as RdCur: its owner
is snooped (R125). -/
def touchCur (c : Comp) (line : Nat) (s : State) : State :=
  match homeOf c (line * 64) s, (getDir c.slot line s).owner with
  | .here (.at_ _), some (.tile _) => s
  | .here (.at_ _), some _ => recallLine .rdCur c.slot line s
  | _, _ => s

/-- An entry read for a walk: its value, or a fault reason at its own level, or an unbacked table. -/
inductive EntRead where
  | val (v : Nat)
  | bad (reason : Nat)
  | unbacked
  deriving DecidableEq, Repr

/-- Read entry `idx` of a table; values that lie on another member, or that another agent owns, come from `ents`. -/
def readEnt (c : Comp) (table idx : Nat) (ents : List (BitVec 64)) (s : State) : EntRead × List (BitVec 64) :=
  let pa := table + idx * 8
  match peekLine c (pa / 64) s with
  | .data l b => (if b then .bad 5 else .val (bitsOf l.toNat (8 * (pa % 64)) 64), ents)
  | .away => match ents with
    | e :: r => (.val e.toNat, r)
    | [] => (.bad 6, [])
  | .failed => (.bad 6, ents)
  | .unbacked => (.unbacked, ents)

/-- An entry with V = 1 is malformed at its level (R209). -/
def entMalformed (c : Comp) (level e : Nat) : Bool :=
  let leaf := bitAt e 1
  let tgt := bitsOf e 2 2
  if !leaf then
    level = 0 || tgt ≠ 0 || bitsOf e 4 8 ≠ 0 || bitsOf e 56 8 ≠ 0
  else
    level = 3 || tgt = 3 ||
    (if tgt = 2 then level ≠ 0 || bitsOf e 38 10 ≥ c.members.length
     else
      bitsOf e 6 6 ≠ 0 || (bitAt e 5 && (level ≠ 0 || tgt = 1))
      || (level = 1 && bitsOf e 12 9 ≠ 0) || (level = 2 && bitsOf e 12 18 ≠ 0)
      || (if tgt = 0 then bitsOf e 56 8 ≠ 0 else bitsOf e 56 8 ≥ c.hostAgents))

/-- The bytes a leaf maps at a level. -/
def leafSize (level : Nat) : Nat := 4096 * 512 ^ level

/-- What a leaf maps. -/
def leafTarget (e : Nat) : Target :=
  match bitsOf e 2 2 with
  | 0 => .pool (bitsOf e 12 44 * 4096)
  | 1 => .host (bitsOf e 56 8) (bitsOf e 12 44 * 4096)
  | _ => .view (bitsOf e 38 10) (bitsOf e 48 16) (bitsOf e 4 34)

/-- The leaf grants writes. -/
def leafWr (e : Nat) : Bool := bitsOf e 2 2 ≠ 2 && bitAt e 4

/-- The sixteen entries of a CONTIG group, as far as they can be read. -/
def readGroup (c : Comp) (table base : Nat) (ents : List (BitVec 64)) (s : State) : List (Option Nat) :=
  ((List.range 16).foldl (fun a i =>
    match readEnt c table (base + i) a.2 s with
    | (.val v, r) => (a.1 ++ [some v], r)
    | (_, r) => (a.1 ++ [none], r)) (([] : List (Option Nat)), ents)).1

/-- The group forms a 64 KiB page (R210). -/
def groupWhole (g : List (Option Nat)) : Bool :=
  match g with
  | some a :: _ =>
    let base := bitsOf a 12 44
    base % 16 = 0 && g.length = 16 && (List.range 16).all (fun i =>
      match g[i]? with
      | some (some v) => bitAt v 5 && bitsOf v 0 12 = bitsOf a 0 12 && bitsOf v 56 8 = bitsOf a 56 8 && bitsOf v 12 44 = base + i
      | _ => false)
  | _ => false

/-- Drop the oldest members of a list beyond a size. -/
def capList {α : Type} (n : Nat) (l : List α) : List α := l.drop (l.length - n)

/-- Keep CTU_STATUS in step. -/
def showCtu (s : State) : State :=
  s |> fset CTU_STATUS_TLB_USED s.xl.tlb.length |> fset CTU_STATUS_WALKERS_BUSY (min 64 s.xl.walks.length)
    |> fset CTU_STATUS_XSTORE_USED ((s.slc.descs.map (fun d => d.runs.length)).sum)

/-- Fill the TLB; which entry a full TLB gives up is not stated: the oldest (assumption 21). -/
def fillTlb (e : TlbEnt) (s : State) : State :=
  showCtu { s with xl := { s.xl with tlb := capList 65536 (s.xl.tlb.filter (fun x => x != e) ++ [e]) } }

/-- Fill the walk cache. -/
def fillWc (e : WcEnt) (s : State) : State :=
  { s with xl := { s.xl with wcache := capList 4096 (s.xl.wcache.filter (fun x => x != e) ++ [e]) } }

/-- Walk from a table of level `n`: structural in the level. -/
def walkAt (c : Comp) (asid va : Nat) : Nat → Nat → List (BitVec 64) → State → Walk × State
  | n, table, ents, s =>
    let idx := bitsOf va (12 + 9 * n) 9
    let s := touchCur c ((table + idx * 8) / 64) s
    match readEnt c table idx ents s with
    | (.unbacked, _) => (.fault 4 (n + 1), s)
    | (.bad r, _) => (.fault r n, s)
    | (.val e, ents) =>
      if !bitAt e 0 then (.fault 0 n, s)
      else if entMalformed c n e then (.fault 1 n, s)
      else if bitAt e 1 then
        let base := va / leafSize n * leafSize n
        if n = 0 && bitsOf e 2 2 ≠ 2 && bitAt e 5 then
          let first := idx / 16 * 16
          let s := s |> touchCur c ((table + first * 8) / 64) |> touchCur c ((table + first * 8) / 64 + 1)
          let g := readGroup c table first ents s
          if groupWhole g then
            let big : TlbEnt := ⟨asid, va / 65536 * 65536, 65536,
              (match leafTarget e with | .pool a => .pool (a - (idx - first) * 4096) | t => t), leafWr e⟩
            (.leaf big, fillTlb big s)
          else
            let t : TlbEnt := ⟨asid, base, 4096, leafTarget e, leafWr e⟩
            (.leaf t, s |> finc (CMP_XLAT_EVENT_CNT c.slot 3) |> fillTlb t)
        else
          let t : TlbEnt := ⟨asid, base, leafSize n, leafTarget e, leafWr e⟩
          (.leaf t, fillTlb t s)
      else
        let next := bitsOf e 12 44 * 4096
        match n with
        | 0 => (.fault 1 0, s)
        | m + 1 => walkAt c asid va m next ents (fillWc ⟨asid, m, va / leafSize n, next⟩ s)

/-- Where a walk starts: below the deepest walk-cache hit, else at the root. -/
def walkStart (asid va : Nat) (s : State) : Nat × Nat :=
  let hit (lv : Nat) := s.xl.wcache.find? (fun w => w.asid == asid && w.level == lv && w.prefix_ == va / leafSize (lv + 1))
  match hit 0, hit 1, hit 2 with
  | some w, _, _ => (0, w.table)
  | none, some w, _ => (1, w.table)
  | none, none, some w => (2, w.table)
  | none, none, none => (3, fget (CTU_ASID_ROOT asid) s * 4096)

/-- The leaf that maps an address, as far as this Slosin can tell without a walk of another member's tables: base and
size. -/
def leafAt (c : Comp) (asid : Nat) (s : State) (va : Nat) : Option TlbEnt :=
  match s.xl.tlb.find? (fun e => e.asid == asid && e.va ≤ va && va < e.va + e.size) with
  | some e => some e
  | none => match (walkAt c asid va 3 (fget (CTU_ASID_ROOT asid) s * 4096) [] s).1 with
    | .leaf e => some e
    | .fault .. => none

/-! ### Translating fields (R213, R214) -/

/-- How a translation ends, or why it waits. -/
inductive XEnd where
  | done
  | fault (reason level page : Nat) (f : AField)
  | tooMany (f : AField)
  | miss (va : Nat)
  deriving DecidableEq, Repr

/-- The offset of the first byte of a pool range that is not backed. -/
def firstUnbacked (c : Comp) (s : State) (pa len : Nat) : Nat → Nat → Option Nat
  | 0, _ => none
  | n + 1, off =>
    if off ≥ len then none
    else match homeOf c (pa + off) s with
      | .here .unbacked => some off
      | .nowhere => some off
      | _ => firstUnbacked c s pa len n ((pa + off) / frameBytes * frameBytes + frameBytes - pa)

/-- The level a TLB entry's leaf stood at. -/
def levelOf (size : Nat) : Nat := if size ≤ 65536 then 0 else if size ≤ 2097152 then 1 else 2

/-- The target `off` bytes into a leaf's page. -/
def targetAt (t : Target) (off : Nat) : Target :=
  match t with
  | .pool a => .pool (a + off)
  | .host g a => .host g (a + off)
  | .view m h p => .view m h p

/-- The target of the byte after `len` bytes at a target. -/
def follows (t : Target) (va len : Nat) : Target :=
  match t with
  | .pool a => .pool (a + len)
  | .host g a => .host g (a + len)
  | .view m h p => .view m h (p + (va % 4096 + len) / 4096)

/-- Add a run, joined to the last one when it goes on from it. -/
def addRun (runs : List Run) (r : Run) : List Run :=
  match runs.getLast? with
  | some l =>
    if l.field = r.field && l.va + l.len = r.va && l.wr = r.wr && follows l.target l.va l.len = r.target then
      runs.dropLast ++ [{ l with len := l.len + r.len }]
    else runs ++ [r]
  | none => [r]

/-- Check a leaf against the access a field makes: the fault reason and the byte where it arises. -/
def leafFault (c : Comp) (f : AField) (e : TlbEnt) (t : Target) (len : Nat) (s : State) : Option (Nat × Nat) :=
  if (f.write || f.atomic) && !e.wr then some (2, 0)
  else match t with
    | .host _ _ => if c.hostCache then none else some (3, 0)
    | .pool pa => (firstUnbacked c s pa len (len / frameBytes + 2) 0).map (fun o => (4, o))
    | .view _ _ _ => none

/-- The state of a translation on its way. -/
structure XPos where
  field : Nat
  off : Nat
  runs : List Run
  /-- The lookup at this position missed and has waited for its walk: it was counted then. -/
  walked : Bool := false
  deriving DecidableEq, Repr

/-- Translate fields from a position on. `fuel` bounds the pages. -/
def xlLoop (c : Comp) (asid : Nat) (fs : List AField) : Nat → XPos → State → XEnd × XPos × State
  | 0, x, s => (.done, x, s)
  | n + 1, x, s =>
    match fs[x.field]? with
    | none => (.done, x, s)
    | some f =>
      if x.off ≥ f.len then xlLoop c asid fs n { x with field := x.field + 1, off := 0 } s
      else if f.va + f.len > 2 ^ 48 then (.fault 0 4 0 f, x, s)
      else
        let va := f.va + x.off
        match s.xl.tlb.find? (fun e => e.asid == asid && e.va ≤ va && va < e.va + e.size) with
        | none => (.miss va, x, s)
        | some e =>
          let s := if x.walked then s else finc (CTU_EVENT_CNT 0) s
          let len := min (e.va + e.size - va) (f.len - x.off)
          let t := targetAt e.target (va - e.va)
          match leafFault c f e t len s with
          | some (r, o) => (.fault r (levelOf e.size) ((va + o) / 4096 - f.va / 4096) f, x, s)
          | none =>
            let runs := addRun x.runs ⟨x.field, va, len, t, e.wr⟩
            if runs.length > 65536 then (.tooMany f, x, s)
            else xlLoop c asid fs n { x with off := x.off + len, runs, walked := false } s

/-- Pages that fields may span: the fuel of a translation. -/
def xlFuel (fs : List AField) : Nat := (fs.map (fun f => f.len / 4096 + 3)).sum + 1

/-- The status of a fault reason (R214). -/
def faultStatus (r : Nat) : Nat := if [0, 1, 5, 6].contains r then 0x11 else 0x12

/-- The DETAIL of a fault (R189). -/
def faultDetail (reason off page : Nat) : Nat := if reason = 7 then 8 else off + min page 0xFFFFFF * 256

/-- Record a translation fault (R215). -/
def recordFault (slot asid level : Nat) (write : Bool) (reason va : Nat) (s : State) : State :=
  let s := finc (CMP_XLAT_EVENT_CNT slot 2) s
  let s := if reason = 4 then finc (CMP_UNBACKED_CNT slot) s else s
  if fbit (CMP_XLAT_FAULT_INFO_FAULT_STK slot) s then fset (CMP_XLAT_FAULT_INFO_OVERRUN_STK slot) 1 s
  else
    s |> fset (CMP_XLAT_FAULT_VA slot) (va / 4096 * 4096) |> fset (CMP_XLAT_FAULT_INFO_ASID slot) asid
      |> fset (CMP_XLAT_FAULT_INFO_LEVEL slot) level |> fsetb (CMP_XLAT_FAULT_INFO_WRITE slot) write
      |> fset (CMP_XLAT_FAULT_INFO_REASON slot) reason |> fset (CMP_XLAT_FAULT_INFO_FAULT_STK slot) 1

/-- End a descriptor that failed a check: status, DETAIL, no bytes done. -/
def failDesc (id status detail : Nat) (s : State) : State :=
  modDesc id (fun d => if d.phase == .finished || d.phase == .skipped then d
    else { d with phase := .finished, status, detail, runs := [], bytes := 0 }) s

/-- A walk is wanted for a page: it joins one that runs, or starts (R211). -/
def wantWalk (slot asid va : Nat) (s : State) : State :=
  let vp := va / 4096
  let s := s |> finc (CTU_EVENT_CNT 1) |> finc (CMP_XLAT_EVENT_CNT slot 0)
  if s.xl.walks.contains (asid, vp) then s
  else showCtu { s with xl := { s.xl with walks := s.xl.walks ++ [(asid, vp)] } }

/-- Entries of the translation store held. -/
def storeUsed (s : State) : Nat := (s.slc.descs.map (fun d => d.runs.length)).sum

/-! ### Views (R97, R104) -/

/-- A page of a harvest: the block of the oldest harvest from it on that holds one, zeros where one recorded zeros, else
nothing kept. -/
def viewPage (r : Region) (version page : Nat) : Option (Option Block) :=
  let hs := (r.harvests.filter isLive).dropWhile (fun h => h.version != version)
  hs.findSome? (fun h =>
    match kget? h.blocks page with
    | some b => some (some b)
    | none => if kmem h.zeros page then some none else none)

/-- Where a line of a view homed here comes from. -/
inductive ViewSrc where
  | kept (l : Line) (bittern : Bool)
  /-- No harvest holds its page: the region's line. -/
  | current (line : Nat)
  /-- Beyond its region: unbacked (R63). -/
  | beyond
  /-- A closed or unknown view (R107). -/
  | closed
  deriving DecidableEq, Repr

/-- See `ViewSrc`. -/
def viewSrc (slot hvid page lineInPage : Nat) (s : State) : ViewSrc :=
  match s.hv.views.find? (fun v => v.slot == slot && v.vslot == hvid % 4096) with
  | none => .closed
  | some v =>
    if v.gen ≠ hvid / 4096 || v.closed then .closed else
    match s.hv.regions.find? (fun r => r.slot == slot && r.base == v.base) with
    | none => .closed
    | some r =>
      if page * 4096 ≥ r.length then .beyond else
      match viewPage r v.version page with
      | some (some b) => .kept ((b.lines[lineInPage]?).getD 0) ((b.bittern[lineInPage]?).getD false)
      | some none => .kept 0 false
      | none => .current ((r.base + page * 4096) / 64 + lineInPage)

/-- Read `n` bytes of a range through runs; a byte that is not here is a free value. Also whether any of it is bittern. -/
def peekBytes (c : Comp) (runs : List Run) : Nat → Nat → State → List Byte × Bool × State
  | 0, _, s => ([], false, s)
  | n + 1, va, s =>
    let byte (l : Line) : Byte := BitVec.ofNat 8 (l.toNat / 2 ^ (8 * (va % 64)))
    let ofLine (line : Nat) : Option (Byte × Bool) := match peekLine c line s with
      | .data l b => some (byte l, b)
      | _ => none
    let here : Option (Byte × Bool) := match runAt runs va with
      | some (.pool a, _) => ofLine (a / 64)
      | some (.view m h p, _) =>
        if c.members[m]? != some (myNode s) then none else
        match viewSrc c.slot h p (va % 4096 / 64) s with
        | .kept l b => some (byte l, b)
        | .current line => ofLine line
        | _ => none
      | _ => none
    let (b, bit, s) := match here with
      | some (x, y) => (x, y, s)
      | none =>
        let (x, s) := takeFree 8 s
        (x, false, s)
    let (bs, bit', s) := peekBytes c runs n (va + 1) s
    (b :: bs, bit || bit', s)

/-- A line of a block that is read stops it: 0x13 in a lower tier (R236), 0x15 in a closed view (R107), 0x12 beyond a
view's region (R63). -/
def blockStop (c : Comp) (runs : List Run) (va : Nat) (s : State) : Option Nat :=
  let ofLine (line : Nat) : Option Nat := match peekLine c line s with
    | .failed => some 0x13
    | _ => none
  match runAt runs va with
  | some (.pool a, _) => ofLine (a / 64)
  | some (.host g _, _) =>
    if kmem s.hv.dead (c.slot * 256 + g) || (entryOfAgent c.slot g s).isNone then some 0x13 else none
  | some (.view m h p, _) =>
    match c.members[m]? with
    | none => some 0x12
    | some n =>
      if n ≠ myNode s then (if fbit (FAB_ROUTE_UNREACHABLE n) s then some 0x13 else none) else
      match viewSrc c.slot h p (va % 4096 / 64) s with
      | .kept _ _ => none
      | .current line => ofLine line
      | .beyond => some 0x12
      | .closed => some 0x15
  | none => none

/-- Translate a descriptor's fields from a position on, reading the blocks it names between stages (R213, R236, R311):
each block is read once and checked, and gives the ranges of further fields. -/
def xlGo (id : Nat) (d : Desc) (c : Comp) (asid : Nat) : Nat → List (BitVec 3072) → XPos → State → State
  | 0, _, _, s => s
  | n + 1, recipe, x, s =>
    let fs := fieldsOf d.raw recipe
    match xlLoop c asid fs (xlFuel fs) x s with
    | (.fault reason level page f, _, s) =>
      s |> recordFault c.slot asid level (f.write || f.atomic) reason (f.va / 4096 * 4096 + page * 4096)
        |> failDesc id (faultStatus reason) (faultDetail reason f.at_ page)
    | (.tooMany f, _, s) => failDesc id 0x20 f.at_ s
    | (.miss va, x, s) =>
      s |> modDesc id (fun d => { d with phase := .walking, pos := (x.field, x.off), runs := x.runs, recipe })
        |> wantWalk c.slot asid va
    | (.done, x, s) =>
      match nextBlock d.raw recipe with
      | some (va, len) =>
        let lines := (List.range ((va % 64 + len + 63) / 64)).map (fun i => max va (va / 64 * 64 + 64 * i))
        match lines.findSome? (fun a => blockStop c x.runs a s) with
        | some st => s |> onlyIf (st == 0x12) (finc (CMP_UNBACKED_CNT c.slot)) |> failDesc id st 0
        | none =>
        let s := each lines (fun a s =>
          match runAt x.runs a with
          | some (.pool a, _) => touchCur c (a / 64) s
          | some (.view m h p, _) =>
            if c.members[m]? != some (myNode s) then s else
            match viewSrc c.slot h p (a % 4096 / 64) s with
            | .current line => touchCur c line s
            | _ => s
          | _ => s) s
        let (bs, bit, s) := peekBytes c x.runs len va s
        let recipe := recipe ++ [BitVec.ofNat 3072 (leNat bs)]
        match checkBlocks d.raw recipe bit (kgetD s.slc.sluices d.sluice {}).accept with
        | some (st, det) => s |> failDesc id st det |> modDesc id (fun d => { d with consumed := st == 0x10 })
        | none => xlGo id d c asid n recipe x s
      | none =>
        if storeUsed s - d.runs.length + x.runs.length > 4194304 then
          s |> fset CTU_STATUS_XSTORE_FULL_STK 1
            |> modDesc id (fun d => { d with phase := .noRoom, pos := (x.field, x.off), runs := [], recipe })
        else
          match afterXlate d.raw c recipe x.runs (fun va => (leafAt c asid s va).map (fun e => (e.va, e.size))) s with
          | some (st, det) => failDesc id st det s
          | none =>
            modDesc id (fun d => { d with phase := (if d.started then .running else .queued), stale := false,
                                          pos := (x.field, x.off), runs := x.runs, recipe }) s

/-- Nothing earlier on its sluice keeps a descriptor from starting, apart from fences. -/
def inOrder (d : Desc) (s : State) : Bool :=
  s.slc.descs.all (fun x => x.sluice != d.sluice || x.id ≥ d.id || x.started || x.early || x.phase == .finished || x.phase == .skipped)

/-- Members of a list that have passed R185 with nothing to hold them back, while none has failed, may have started by
now: such a member is not skipped whatever a later one does (R188, Example 7.1). How soon it starts is left open. -/
def markEarly (list : Nat) (s : State) : State :=
  let ms := s.slc.descs.filter (fun d => d.list == list)
  if ms.any (fun d => !d.multi || (d.phase == .finished && d.status ≥ 0x10)) then s else
  each (ms.map (·.id)) (fun id s =>
    match descOf id s with
    | some d =>
      if d.phase != .queued || d.early || dOrder d.raw ≠ 0 || !inOrder d s then s else
      let (late, s) := takeFree 1 s
      modDesc id (fun d => { d with early := late == 0 }) s
    | none => s) s

/-- Translate a descriptor from where its translation stands (step 10 of R185). -/
def xlateDesc (id : Nat) (s : State) : State :=
  match descOf id s with
  | none => s
  | some d =>
    match compOfSluice d.sluice s with
    | none => s
    | some c =>
      let asid := dAsid d.raw
      if !fbit (CTU_ASID_VALID asid) s || asid / 1024 ≠ c.slot then
        s |> recordFault c.slot asid 7 false 7 0 |> failDesc id 0x12 8
      else
        xlGo id d c asid 3 d.recipe ⟨d.pos.1, d.pos.2, d.runs, d.phase == .walking⟩ s |> markEarly d.list |> showCtu

/-- Start a descriptor's translation over. -/
def restartXlate (id : Nat) (s : State) : State :=
  s |> modDesc id (fun d => { d with pos := (0, 0), runs := [], recipe := [] }) |> xlateDesc id

/-- The descriptors whose translation stands at a page. -/
def waitsOn (asid vp : Nat) (s : State) : List Nat :=
  (s.slc.descs.filter (fun d => d.phase == .walking && dAsid d.raw == asid &&
    (match (fieldsOf d.raw d.recipe)[d.pos.1]? with
     | some f => (f.va + d.pos.2) / 4096 == vp
     | none => false))).map (·.id)

/-- A walk ends (R211): its leaf fills the TLB and the descriptors that waited go on; a fault ends them. -/
def walkDone (asid va : Nat) (ents : List (BitVec 64)) (s : State) : State :=
  let vp := va / 4096
  if !s.xl.walks.contains (asid, vp) then s else
  let s := showCtu { s with xl := { s.xl with walks := s.xl.walks.erase (asid, vp) } }
  let ws := waitsOn asid vp s
  match compAt (asid / 1024) s with
  | none => s
  | some c =>
    if !fbit (CTU_ASID_VALID asid) s then each ws xlateDesc s else
    let (lv, table) := walkStart asid va s
    match walkAt c asid va lv table ents s with
    | (.leaf _, s) => s |> finc (CTU_EVENT_CNT 2) |> each ws xlateDesc
    | (.fault r level, s) =>
      each ws (fun id s =>
        match descOf id s with
        | none => s
        | some d =>
          match (fieldsOf d.raw d.recipe)[d.pos.1]? with
          | none => s
          | some f =>
            let page := (f.va + d.pos.2) / 4096 - f.va / 4096
            s |> recordFault c.slot asid level (f.write || f.atomic) r va |> failDesc id (faultStatus r) (faultDetail r f.at_ page)) s

/-! ### ASIDs and invalidations (R202, R217 to R220) -/

/-- An invalidation of an ASID begins, or joins the one that runs. -/
def invalidate (asid : Nat) (abort : Bool) (cmd : Option Nat) (destroy : Bool) (s : State) : State :=
  let s := { s with xl := { s.xl with
      tlb := s.xl.tlb.filter (fun e => e.asid != asid), wcache := s.xl.wcache.filter (fun e => e.asid != asid) } }
  let mine := s.slc.descs.filter (fun d => dAsid d.raw == asid && d.phase != .finished && d.phase != .skipped)
  let old := (s.mem.tier.filter (fun a => mine.any (fun d => d.id == a.desc))).map (·.id)
  let s := each mine (fun d s =>
    if abort then
      if d.started then endWork d.id 0x14 s else failDesc d.id 0x14 0 s
    else if d.phase == .walking || d.phase == .noRoom then
      modDesc d.id (fun d => { d with pos := (0, 0), runs := [], recipe := [] }) s
    else modDesc d.id (fun d => { d with stale := true }) s) s
  let s := match s.xl.invs.find? (fun i => i.asid == asid) with
    | some i =>
      let j : Inv := { i with abort := i.abort || abort, cmd := i.cmd.or cmd, destroy := i.destroy || destroy,
                              waitFor := i.waitFor ++ old }
      { s with xl := { s.xl with invs := s.xl.invs.map (fun x => if x.asid == asid then j else x) } }
    | none => { s with xl := { s.xl with invs := s.xl.invs ++ [{ asid, abort, cmd, destroy, waitFor := old }] } }
  -- descriptors whose walk was cut short want it again
  s |> each ((s.slc.descs.filter (fun d => d.phase == .walking && dAsid d.raw == asid)).map (·.id)) xlateDesc |> showCtu

/-- An invalidation completes once every access under an old translation has landed (R219). -/
def invComplete (asid : Nat) (s : State) : State :=
  match s.xl.invs.find? (fun i => i.asid == asid) with
  | none => s
  | some i =>
    if i.waitFor.any (fun id => s.mem.tier.any (fun a => a.id == id)) then s else
    let slot := asid / 1024
    let s := { s with xl := { s.xl with invs := s.xl.invs.filter (fun x => x.asid != asid) } }
    let s := s |> finc (CMP_XLAT_EVENT_CNT slot 1) |> finc (CTU_EVENT_CNT 3)
    let s := if i.destroy then s |> fset (CTU_ASID_VALID asid) 0 |> fset (CTU_ASID_ROOT asid) 0 else s
    match i.cmd with
    | some sl => s |> fset (CMP_ASID_CMD_GO sl) 0 |> fset (CMP_ASID_CMD_RESULT sl) 0
    | none => s

/-- Why an ASID operation is refused: its RESULT code, 0 for none. -/
def asidRefusal (slot op asid root : Nat) (s : State) : Nat :=
  let rootBad := match compAt slot s with
    | some c => !rangeBacked c root 4096 s
    | none => true
  if asid / 1024 ≠ slot then 1
  else if op = 0 && fbit (CTU_ASID_VALID asid) s then 2
  else if op ≠ 0 && !fbit (CTU_ASID_VALID asid) s then 3
  else if (op = 0 || op = 4) && rootBad then 4
  else 0

/-- GO = 1: start the operation that CMP_ASID_CMD names (R202). CREATE and a refused operation end at once. -/
def asidGo (slot : Nat) (s : State) : State :=
  let asid := fget (CMP_ASID_CMD_ASID slot) s
  let op := fget (CMP_ASID_CMD_OP slot) s
  let root := fget (CMP_ASID_ROOT_ROOT slot) s
  let refusal := asidRefusal slot op asid (root * 4096) s
  if refusal ≠ 0 then s |> fset (CMP_ASID_CMD_GO slot) 0 |> fset (CMP_ASID_CMD_RESULT slot) refusal
  else
    match op with
    | 0 =>
      { s with xl := { s.xl with tlb := s.xl.tlb.filter (fun e => e.asid != asid), wcache := s.xl.wcache.filter (fun e => e.asid != asid) } }
        |> fset (CTU_ASID_VALID asid) 1 |> fset (CTU_ASID_ROOT asid) root
        |> fset (CMP_ASID_CMD_GO slot) 0 |> fset (CMP_ASID_CMD_RESULT slot) 0 |> showCtu
    | 1 => s |> fset (CMP_ASID_CMD_GO slot) 1 |> invalidate asid true (some slot) true
    | 2 => s |> fset (CMP_ASID_CMD_GO slot) 1 |> invalidate asid false (some slot) false
    | 3 => s |> fset (CMP_ASID_CMD_GO slot) 1 |> invalidate asid true (some slot) false
    | _ => s |> fset (CTU_ASID_ROOT asid) root |> fset (CMP_ASID_CMD_GO slot) 1 |> invalidate asid false (some slot) false

/-- Every ASID of a slot is destroyed, or of all slots (R203). -/
def killAsids (p : Nat → Bool) (s : State) : State :=
  let base := (CTU_ASID_VALID 0).key
  let live := s.regs.filterMap (fun e =>
    let a := (e.1 - base) / 64
    if base ≤ e.1 && (e.1 - base) % 64 == 0 && a < 65536 && p a then some a else none)
  let s := each live (fun a s => s |> fset (CTU_ASID_VALID a) 0 |> fset (CTU_ASID_ROOT a) 0) s
  showCtu { s with xl := { s.xl with
    tlb := s.xl.tlb.filter (fun e => !p e.asid), wcache := s.xl.wcache.filter (fun e => !p e.asid),
    walks := s.xl.walks.filter (fun w => !p w.1), invs := s.xl.invs.filter (fun i => !p i.asid) } }

/-! ### The commands -/

/-- INVAL_COMPLETE (R219). -/
def execInvalComplete (asid : BitVec 16) (s : State) := ok (invComplete asid.toNat s)
/-- WALK_DONE (R211). -/
def execWalkDone (asid : BitVec 16) (va : BitVec 48) (ents : List (BitVec 64)) (s : State) :=
  ok (walkDone asid.toNat va.toNat ents s)
/-- XSTORE_ROOM (R213): the wait of `ns` nanoseconds is counted. -/
def execXstoreRoom (d ns : Nat) (s : State) :=
  ok (match descOf d s with
    | some x =>
      if x.phase = .noRoom then
        s |> fadd (CTU_EVENT_CNT 4) ns |> addStall d 0 ns |> restartXlate d
      else s
    | none => s)

end Sys2Proof.Machine
end

