-- ==== Sys2Proof/Machine/Sluice.lean ====
section
/-! DEFINITION. Sluices and command lists (chapter 7): enable and disable, doorbells, fetching, checks, starting, and
completion records. -/

namespace Sys2Proof.Machine

/-! ### Features (R199, R200) -/

/-- The accept words of a sluice as one number. -/
def acceptWords (k : Nat) (s : State) : Nat :=
  fget (SLC_FEAT_ACCEPT k 0) s + fget (SLC_FEAT_ACCEPT k 1) s * 2 ^ 64 + fget (SLC_FEAT_ACCEPT k 2) s * 2 ^ 128
    + fget (SLC_FEAT_ACCEPT k 3) s * 2 ^ 192

/-- A composition's offer as one number. -/
def offerWords (slot : Nat) (s : State) : Nat :=
  fget (CMP_FEAT_OFFER slot 0) s + fget (CMP_FEAT_OFFER slot 1) s * 2 ^ 64 + fget (CMP_FEAT_OFFER slot 2) s * 2 ^ 128
    + fget (CMP_FEAT_OFFER slot 3) s * 2 ^ 192

/-- The bits a composition's configuration excludes (R199). -/
def excludedBits (c : Comp) : Nat :=
  let eng := (List.range 6).foldl (fun m e =>
    if bitAt c.engineMask e then m else m ||| 2 ^ (16 + e) ||| (65535 * 2 ^ (64 + 16 * e))) 0
  let move := if bitAt c.engineMask 0 then 0 else 2 ^ 7 + 2 ^ 8
  let harvest := if c.harvestEn then 0 else 2 ^ 7
  eng ||| move ||| harvest

/-- Recompute CMP_FEAT_OFFER of a composition (R199, R553). -/
def showOffer (slot : Nat) (s : State) : State :=
  match compAt slot s with
  | none => each (List.range 4) (fun k => fset (CMP_FEAT_OFFER slot k) 0) s
  | some c =>
    let x := excludedBits c
    each (List.range 4) (fun k s =>
      let acc := fget (GLB_FEAT_ACCEPT k) s
      let e := bitsOf x (64 * k) 64
      fset (CMP_FEAT_OFFER slot k) (acc - (acc &&& e)) s) s

/-- Recompute every composition's offer. -/
def showOffers (s : State) : State := each s.comps (fun c => showOffer c.slot) s

/-! ### Enable and disable (R182, R200) -/

/-- The first check of an enable that fails: its ENABLE_ERR code, 0 for none. -/
def enableErr (k : Nat) (c : Comp) (s : State) : Nat :=
  let acc := acceptWords k s
  let offer := offerWords c.slot s
  let port := fget (SLC_CTL_PORT k) s
  let sqBase := fget (SLC_SQ_BASE_BASE k) s * 4096
  let cqBase := fget (SLC_CQ_BASE_BASE k) s * 4096
  let asid := fget (SLC_CTL_ASID k) s
  let ringBad (loc base len : Nat) : Bool := if loc = 1 then !bitAt acc 2 else !rangeBacked c base len s
  if !bitAt acc 0 || acc &&& offer ≠ acc || (fget (SLC_IRQ_MODE k) s = 2 && !bitAt acc 6) then 1
  else if fget (PRT_STATUS_ROLE port) s ≠ 1 || !bitAt c.portMask port then 2
  else if ringBad (fget (SLC_CTL_SQ_LOC k) s) sqBase (64 * sqSize k s) || ringBad (fget (SLC_CTL_CQ_LOC k) s) cqBase (32 * cqSize k s) then 3
  else if asid / 1024 ≠ c.slot || !fbit (CTU_ASID_VALID asid) s then 4
  else if !vecOk port (fget (SLC_IRQ_VECTOR k) s) c.slot s then 6
  else 0

/-- ENABLE = 1 is written. A sluice of no composition has no offer to be within, so its enable fails as FEATURE. -/
def sluiceEnable (k : Nat) (s : State) : State :=
  match compOfSluice k s with
  | none => s |> fset (SLC_CTL_ENABLE k) 0 |> fset (SLC_STATUS_ENABLE_ERR k) 1 |> fset (SLC_STATUS_FEAT_ERR_STK k) 1
  | some c =>
    match fget (SLC_STATUS_STATE k) s with
    | 0 =>
      let e := enableErr k c s
      if e = 0 then
        s |> setSluice k { accept := acceptWords k s } |> fset (SLC_STATUS_STATE k) 1
          |> fset (SLC_STATUS_SQ_HEAD k) 0 |> fset (SLC_SQ_TAIL_TAIL k) 0 |> fset (SLC_STATUS_CQ_TAIL k) 0
          |> fset (SLC_CQ_HEAD_HEAD k) 0 |> fset (SLC_STATUS_PHASE k) 1 |> fset (SLC_IRQ_ARMED k) 1
          |> fset (SLC_STATUS_ENABLE_ERR k) 0
      else
        s |> fset (SLC_CTL_ENABLE k) 0 |> fset (SLC_STATUS_ENABLE_ERR k) e
          |> onlyIf (e == 1) (fset (SLC_STATUS_FEAT_ERR_STK k) 1)
    | 4 => s |> fset (SLC_CTL_ENABLE k) 0 |> fset (SLC_STATUS_ENABLE_ERR k) 5
    | _ => s

/-- ENABLE = 0 is written: fetching stops and the sluice drains; a list not wholly fetched is freed whole. -/
def sluiceDisable (k : Nat) (s : State) : State :=
  let st := fget (SLC_STATUS_STATE k) s
  if st = 1 || st = 2 || st = 3 then
    let slot := ((compOfSluice k s).map (·.slot)).getD 0
    s |> fset (SLC_STATUS_STATE k) 4 |> setSluice k { sluiceOf k s with fetching := none, part := [] } |> showFlight k
      |> showStopped slot
  else s

/-- A sluice leaves its composition (R48, R182): what has not started is discarded without a record. -/
def sluiceLeaves (k : Nat) (s : State) : State :=
  let gone (d : Nat) : Bool := s.slc.descs.any (fun x => x.id == d && x.sluice == k)
  { s with slc := { s.slc with descs := s.slc.descs.filter (fun d => d.sluice != k) },
           pan := { s.pan with pieces := s.pan.pieces.filter (fun p => !gone p.desc) } }
    |> setSluice k {} |> fset (SLC_CTL_ENABLE k) 0 |> fset (SLC_STATUS_STATE k) 0 |> fset (SLC_STATUS_IN_FLIGHT k) 0 |> showCtu

/-! ### Doorbells (R181) -/

/-- An ignored doorbell write. -/
def doorbellIgnored (k : Nat) (s : State) : State := s |> fset (SLC_STATUS_DB_ERR_STK k) 1 |> finc GLB_IGNORED_WRITE_CNT

/-- The state accepts doorbell writes. -/
def takesDoorbell (k : Nat) (s : State) : Bool :=
  let st := fget (SLC_STATUS_STATE k) s
  st == 1 || st == 2

/-- `a − b` modulo a ring's size. -/
def ringSub (a b size : Nat) : Nat := (a + size - b % size) % size

/-- A write to SLC_SQ_TAIL. -/
def sqDoorbell (k v : Nat) (s : State) : State :=
  let n := sqSize k s
  let head := fget (SLC_STATUS_SQ_HEAD k) s
  let old := fget (SLC_SQ_TAIL_TAIL k) s
  if !takesDoorbell k s || v ≥ n || ringSub v head n < ringSub old head n then doorbellIgnored k s
  else fset (SLC_SQ_TAIL_TAIL k) v s

/-- A write to SLC_CQ_HEAD: an accepted one frees records and arms the interrupt. -/
def cqDoorbell (k v : Nat) (s : State) : State :=
  let n := cqSize k s
  let tail := fget (SLC_STATUS_CQ_TAIL k) s
  let old := fget (SLC_CQ_HEAD_HEAD k) s
  if !takesDoorbell k s || v ≥ n || ringSub v old n > ringSub tail old n then doorbellIgnored k s
  else s |> fset (SLC_CQ_HEAD_HEAD k) v |> fset (SLC_IRQ_ARMED k) 1 |> irqTry k

/-! ### Fetching (R176, R179, R194) -/

/-- Lists of a sluice fetched and not completed: the completion slots reserved. -/
def reservedOf (k : Nat) (s : State) : Nat :=
  ((s.slc.descs.filter (fun d => d.sluice == k)).map (·.list)).eraseDups.length + b2n (!(sluiceOf k s).part.isEmpty)

/-- Completion slots free for reservation. -/
def cqRoom (k : Nat) (s : State) : Nat :=
  let n := cqSize k s
  n - 1 - (reservedOf k s + ringSub (fget (SLC_STATUS_CQ_TAIL k) s) (fget (SLC_CQ_HEAD_HEAD k) s) n)

/-- A sluice leaves its composition with the delta whose step 3 has begun: it stops fetching (R48). -/
def sluiceLeaving (k : Nat) (s : State) : Bool :=
  (s.img.deltaPhase == .draining || s.img.deltaPhase == .marking) &&
  match s.img.staged, compOfSluice k s with
  | some d, some c => d.entries.any (fun e => e.1.cmpId == c.cmpId &&
      (!e.2 || k < e.1.sluiceFirst || e.1.sluiceFirst + e.1.sluiceCount ≤ k))
  | _, _ => false

/-- Slots that the next request of a sluice may take. -/
def fetchable (k : Nat) (s : State) : Nat :=
  if sluiceLeaving k s || fget (SLC_STATUS_STATE k) s ≠ 1 || (sluiceOf k s).fetching.isSome then 0 else
  let covered := ringSub (fget (SLC_SQ_TAIL_TAIL k) s) (fget (SLC_STATUS_SQ_HEAD k) s) (sqSize k s)
  let held := s.slc.descs.length + (s.slc.sluices.map (fun e => countDescs e.2.part)).sum
  min (min 8 covered) (min (cqRoom k s + b2n (!(sluiceOf k s).part.isEmpty)) (min (256 - inFlight k s) (32768 - held)))

/-- A sluice's priority, aged sluices one level up. -/
def prioOf (k : Nat) (s : State) : Nat := min 3 (fget (SLC_CTL_PRIO k) s + b2n (sluiceOf k s).aged)

/-- The sluice that the front ends pick: strict priority, then weighted round robin. -/
def pickSluice (s : State) : Option Nat :=
  let ready := (s.slc.sluices.map (·.1)).filter (fun k => fetchable k s > 0)
  let top := ready.foldl (fun m k => max m (prioOf k s)) 0
  let cs := ready.filter (fun k => prioOf k s == top)
  if cs.contains s.slc.rrLast && s.slc.rrLeft > 0 then some s.slc.rrLast
  else match cs.find? (fun k => k > s.slc.rrLast) with
    | some k => some k
    | none => cs.head?

/-- DESCRIPTOR_FETCH: pick a sluice and send its fetch. -/
def descriptorFetch (s : State) : State :=
  match pickSluice s with
  | none => s
  | some k =>
    let left := if k = s.slc.rrLast && s.slc.rrLeft > 0 then s.slc.rrLeft - 1 else fget (SLC_CTL_WEIGHT k) s
    let n := fetchable k s
    { s with slc := { s.slc with rrLast := k, rrLeft := left } }
      |> setSluice k { sluiceOf k s with fetching := some n, aged := false }

/-- What a fetch of `n` slots reads: the slots before the one that failed, and whether one failed. Slots of a host ring, of
a ring on another member or in a line another agent owns come with the command. -/
def ringRead (k : Nat) (c : Comp) (slots : List (BitVec 512)) (failAt : Option Nat) (s : State) (head : Nat) :
    Nat → Nat → List (BitVec 512) × Bool
  | 0, _ => ([], false)
  | n + 1, i =>
    let outside : Option (BitVec 512) := if failAt == some i then none else slots[i]?
    let x : Option (BitVec 512) :=
      if fget (SLC_CTL_SQ_LOC k) s = 1 then outside else
      let pa := fget (SLC_SQ_BASE_BASE k) s * 4096 + (head + i) % sqSize k s * 64
      match peekLine c (pa / 64) s with
      | .data l b => if b then none else some l
      | .away => outside
      | _ => none
    match x with
    | none => ([], true)
    | some v =>
      let (r, f) := ringRead k c slots failAt s head n (i + 1)
      (v :: r, f)

/-- The first descriptor of a slot list. -/
def takeDesc : List (BitVec 512) → Option (BitVec 1024 × List (BitVec 512))
  | [] => none
  | a :: r =>
    if slotExt a then
      match r with
      | [] => none
      | b :: r' => some (BitVec.ofNat 1024 (a.toNat + b.toNat * 2 ^ 512), r')
    else some (BitVec.ofNat 1024 a.toNat, r)

/-- The first whole command list of a slot list: at most 256 descriptors. -/
def takeList : Nat → List (BitVec 512) → List (BitVec 1024) → Option (List (BitVec 1024) × List (BitVec 512))
  | 0, _, _ => none
  | n + 1, l, acc =>
    match takeDesc l with
    | none => none
    | some (d, r) =>
      let acc := acc ++ [d]
      if dLink d && acc.length < 256 then takeList n r acc else some (acc, r)

/-- Every whole list, and what is left. -/
def takeLists : Nat → List (BitVec 512) → List (List (BitVec 1024)) × List (BitVec 512)
  | 0, l => ([], l)
  | n + 1, l =>
    match takeList 257 l [] with
    | none => ([], l)
    | some (d, r) =>
      let (ds, r') := takeLists n r
      (d :: ds, r')

/-- The slots of an incomplete list end in a lone first half of an extended descriptor. -/
def loneHalf : Nat → List (BitVec 512) → Bool
  | 0, _ => false
  | _, [] => false
  | n + 1, a :: r =>
    match takeDesc (a :: r) with
    | none => true
    | some (_, r') => loneHalf n r'

/-! ### Checks (R185) -/

/-- Steps 1 to 9 of R185 for a descriptor of sluice `k`. -/
def checkDesc (raw : BitVec 1024) (k : Nat) (c : Comp) (s : State) : Chk :=
  let acc := (sluiceOf k s).accept &&& offerWords c.slot s
  let e := dEng raw
  firstFail [
    must (dVer raw != 0) 0x20 1,
    must (dVer raw == 1) 0x22 1,
    must (e < 6) 0x20 1,
    must (dOrder raw != 3) 0x20 2,
    must (bitsOf raw.toNat 22 10 == 0) 0x21 2,
    must (!(dExt raw) || bitAt acc 1) 0x22 2,
    must (!(dLink raw) || bitAt acc 3) 0x22 2,
    must (!(dQuiet raw) || bitAt acc 4) 0x22 2,
    must (dOrder raw != 2 || bitAt acc 5) 0x22 2,
    must (opcKnown e (dOpc raw)) 0x20 0,
    must (dAsid raw == fget (SLC_CTL_ASID k) s && dJob raw == fget (SLC_CTL_JOB k) s) 0x12 0,
    must (bitAt c.engineMask e) 0x12 0,
    must (bitAt acc (16 + e) && (match opcFeat e (dOpc raw) with | some b => bitAt acc b | none => true)) 0x22 0,
    checkEng raw c acc s]

/-- Members of a list in order. -/
def listOf (list : Nat) (s : State) : List Desc := s.slc.descs.filter (fun d => d.list == list)

/-- A member of the list failed. -/
def listDead (list : Nat) (s : State) : Bool := (listOf list s).any (fun d => d.phase == .finished && d.status ≥ 0x10)

/-- Members of a failed list that have not started are skipped (R188). -/
def sweepList (list : Nat) (s : State) : State :=
  if !listDead list s then s else
  { s with slc := { s.slc with descs := s.slc.descs.map (fun d =>
      if d.list == list && !d.started && !d.early && d.phase != .finished then { d with phase := .skipped, runs := [] } else d) } }

/-- Take one descriptor of a list in: checks and translation. -/
def takeMember (k : Nat) (c : Comp) (list idx : Nat) (multi : Bool) (raw : BitVec 1024) (s : State) : State :=
  let id := s.slc.nextDesc
  let d : Desc := { id, sluice := k, slot := c.slot, raw, list, idx, multi }
  let s := { s with slc := { s.slc with descs := s.slc.descs ++ [d], nextDesc := id + 1 } }
  if listDead list s then modDesc id (fun d => { d with phase := .skipped }) s else
  match checkDesc raw k c s with
  | some (st, det) => failDesc id st det s
  | none => xlateDesc id s

/-- Take a whole list in. A list that does not end by its 256th descriptor fails whole (R187). -/
def takeWhole (k : Nat) (c : Comp) (ds : List (BitVec 1024)) (s : State) : State :=
  let list := s.slc.nextList
  let s := { s with slc := { s.slc with nextList := list + 1 } }
  let multi := ds.length > 1
  let tooLong := ds.length = 256 && (match ds.getLast? with | some d => dLink d | none => false)
  if tooLong then
    let id := s.slc.nextDesc
    let mk (i : Nat) (raw : BitVec 1024) : Desc :=
      { id := id + i, sluice := k, slot := c.slot, raw, list, idx := i, multi := true,
        phase := if i = 255 then .finished else .skipped, status := if i = 255 then 0x20 else 0, detail := if i = 255 then 2 else 0 }
    { s with slc := { s.slc with descs := s.slc.descs ++ ds.mapIdx mk, nextDesc := id + 256 } }
  else
    let s := (ds.foldl (fun (a : Nat × State) raw => (a.1 + 1, takeMember k c list a.1 multi raw a.2)) (0, s)).2
    sweepList list s

/-- FETCH_RETURN. -/
def fetchReturn (k : Nat) (slots : List (BitVec 512)) (failAt : Option Nat) (s : State) : State :=
  let x := sluiceOf k s
  match x.fetching, compOfSluice k s with
  | some n, some c =>
    let s := setSluice k { x with fetching := none } s
    if fget (SLC_STATUS_STATE k) s ≠ 1 then s else
    let head := fget (SLC_STATUS_SQ_HEAD k) s
    let size := sqSize k s
    let (got, failed) := ringRead k c slots failAt s head n 0
    let all := x.part ++ got
    let (lists, rest) := takeLists (all.length + 1) all
    let lone := loneHalf (rest.length + 1) rest
    let taken := if failed then got.length + 1 else got.length - b2n lone
    let part := if failed then [] else if lone then rest.dropLast else rest
    s |> onlyIf (fget (SLC_CTL_SQ_LOC k) s = 0) (each (List.range n) (fun i s =>
        touchCur c (fget (SLC_SQ_BASE_BASE k) s * 64 + (head + i) % size) s))
      |> fset (SLC_STATUS_SQ_HEAD k) ((head + taken) % size)
      |> setSluice k { sluiceOf k s with part }
      |> each lists (takeWhole k c)
      |> onlyIf failed (ringError k)
      |> showFlight k
  | _, _ => s

/-! ### Starting (R192, R193, R195) -/

/-- A descriptor's work is complete and visible. -/
def workDone (d : Desc) (s : State) : Bool :=
  (d.phase == .finished || d.phase == .skipped) && s.mem.tier.all (fun a => a.desc != d.id)
    && s.pan.pieces.all (fun p => p.desc != d.id)

/-- Its fence lets it start (R193). -/
def fenceOpen (d : Desc) (s : State) : Bool :=
  let job := dJob d.raw
  match dOrder d.raw with
  | 1 => s.slc.descs.all (fun x => x.sluice != d.sluice || x.id ≥ d.id || workDone x s)
  | 2 => s.slc.descs.all (fun x => x.id ≥ d.id || workDone x s
      || (x.sluice != d.sluice && (job == 0 || dJob x.raw != job || x.slot != d.slot)))
  | _ => true

/-- A descriptor's runs touch a pool range. -/
def touchesPool (runs : List Run) (pa len : Nat) : Bool :=
  runs.any (fun r => match r.target with | .pool a => a < pa + len && pa < a + r.len | _ => false)

/-- A migration has the descriptor's pages in its batch: it is held (R71, step 1). -/
def migHeld (d : Desc) (s : State) : Bool :=
  s.slc.descs.any (fun m => m.slot == d.slot && m.id != d.id && m.phase == .waiting &&
    m.mig.any (fun g => !g.prefetch && g.batch.any (fun b => touchesPool d.runs b.src b.size)))

/-- DESCRIPTOR_START. -/
def descriptorStart (id : Nat) (s : State) : State :=
  match descOf id s with
  | none => s
  | some d =>
    let s := sweepList d.list s
    match descOf id s with
    | none => s
    | some d =>
      let st := fget (SLC_STATUS_STATE d.sluice) s
      if d.phase != .queued || d.started || !inOrder d s || !fenceOpen d s || migHeld d s || (st ≠ 1 && st ≠ 3 && st ≠ 4) then s else
      let s := if d.stale then restartXlate id s else s
      match descOf id s, compOfSluice d.sluice s with
      | some d, some c =>
        if d.phase != .queued then s else
        let clamped : Bool := c.bwClass < fget (SLC_CTL_BW_CLASS d.sluice) s
        s |> modDesc id (fun d => { d with started := true, phase := .running, clamped })
          |> onlyIf clamped (finc (SLC_CLASS_CLAMP_CNT d.sluice))
      | _, _ => s

/-! ### Completion (R188 to R190) -/

/-- A completion record's 32 bytes. -/
def recordNat (seq status phase : Nat) (isList : Bool) (stall bytes dropped detail sqHead eng idx : Nat) : Nat :=
  seq + status * 2 ^ 32 + (phase + b2n isList * 2) * 2 ^ 40 + stall % 512 * 2 ^ 48 + bytes % 2 ^ 64 * 2 ^ 64
    + dropped % 2 ^ 64 * 2 ^ 128 + detail % 2 ^ 32 * 2 ^ 192 + sqHead * 2 ^ 224 + eng * 2 ^ 240 + idx * 2 ^ 248

/-- Write 32 bytes at the completion tail: whether it could be written. -/
def writeRecord (k : Nat) (c : Comp) (rcd : Nat) (s : State) : Bool × State :=
  let tail := fget (SLC_STATUS_CQ_TAIL k) s
  let base := fget (SLC_CQ_BASE_BASE k) s * 4096 + tail * 32
  if fget (SLC_CTL_CQ_LOC k) s = 1 then
    let port := fget (SLC_CTL_PORT k) s
    if fbit (PRT_STATUS_LINK_UP port) s then (true, emit (.hostWrite port base (natLe 32 rcd)) s) else (false, s)
  else
    let half := base % 64
    let data : Line := BitVec.ofNat 512 (rcd * 2 ^ (8 * half))
    let mask : BitVec 64 := BitVec.ofNat 64 (0xFFFFFFFF * 2 ^ half)
    match homeOf c base s with
    | .here (.at_ p) =>
      if tierUp p s then (true, submit c.slot (base / 64) { kind := .write, op := .write data mask } s) else (false, s)
    | .member _ n =>
      if fbit (FAB_ROUTE_UNREACHABLE n) s then (false, s)
      else (true, (sendReq 0x09 n c.cmpId (base / 64 * 64) mask.toNat (lineSlots data) false (.record k) s).2)
    | _ => (false, s)

/-- The member of a finished list that its record reports: the lowest that failed, else the last. -/
def reported (ms : List Desc) : Option Desc :=
  match ms.find? (fun d => d.phase == .finished && d.status ≥ 0x10) with
  | some d => some d
  | none => ms.getLast?

/-- DESCRIPTOR_COMPLETE: the record of a descriptor, or of the list it belongs to. -/
def descriptorComplete (id : Nat) (s : State) : State :=
  match descOf id s with
  | none => s
  | some d0 =>
    let s := sweepList d0.list s
    let ms := listOf d0.list s
    let k := d0.sluice
    match reported ms, compOfSluice k s with
    | some r, some c =>
      if !ms.all (fun d => workDone d s) then s else
      let ran := ms.filter (fun d => d.phase == .finished)
      let bytes := (ran.map (·.bytes)).sum
      let dropped := (ran.map (·.dropped)).sum
      let stall := ran.foldl (fun m d => m ||| d.stall) 0
      let s := s |> fadd (SLC_DONE_CNT k) ran.length
        |> fadd (SLC_FAIL_CNT k) (ran.filter (fun d => d.status ≥ 0x10)).length |> fadd (SLC_BYTES_CNT k) bytes
      let hit := ran.filter (fun d => d.status = 0x10 && d.consumed)
      let s := fadd (CMP_BITTERN_USE_CNT c.slot) hit.length s
      let s := { s with slc := { s.slc with descs := s.slc.descs.filter (fun d => d.list != d0.list) } }
      let quiet := dQuiet r.raw && r.status < 2
      let s := if quiet then s else
        let phase := fget (SLC_STATUS_PHASE k) s
        let rcd := recordNat (dSeq r.raw) r.status phase r.multi stall bytes dropped r.detail (fget (SLC_STATUS_SQ_HEAD k) s)
          (dEng r.raw) (if r.multi then r.idx else 0)
        match writeRecord k c rcd s with
        | (true, s) =>
          let tail := fget (SLC_STATUS_CQ_TAIL k) s + 1
          let wraps := tail ≥ cqSize k s
          s |> fset (SLC_STATUS_CQ_TAIL k) (if wraps then 0 else tail) |> onlyIf wraps (fset (SLC_STATUS_PHASE k) (1 - phase))
            |> irqRecord k r.status (ms.any (fun d => dIrq d.raw))
        | (false, s) => ringError k s
      s |> onlyIf (!hit.isEmpty) (consumedOn k) |> showFlight k |> showCtu
    | _, _ => s

/-! ### The commands -/

/-- DESCRIPTOR_FETCH (R179). -/
def execDescriptorFetch (s : State) := ok (descriptorFetch s)
/-- SLUICE_AGING (R194). -/
def execSluiceAging (k : BitVec 16) (s : State) :=
  ok (if fetchable k.toNat s > 0 then setSluice k.toNat { sluiceOf k.toNat s with aged := true } s else s)
/-- FETCH_RETURN (R185). -/
def execFetchReturn (k : BitVec 16) (slots : List (BitVec 512)) (failAt : Option Nat) (s : State) :=
  ok (fetchReturn k.toNat slots failAt s)
/-- DESCRIPTOR_START (R192). -/
def execDescriptorStart (d : Nat) (s : State) := ok (descriptorStart d s)
/-- IRQ_TIMER (R197). -/
def execIrqTimer (k : BitVec 16) (s : State) :=
  let x := sluiceOf k.toNat s
  ok (if fget (SLC_IRQ_MODE k.toNat) s = 2 && fget (SLC_IRQ_TIMER_US k.toNat) s ≠ 0 && x.timer && x.unsignalled > 0
    then irqEvent k.toNat s else s)
/-- JOB_STOP (R113): the job is in the packet's TAG (assumption 17). -/
def execJobStop (h : Hdr) (s : State) :=
  ok (onHdr 0x82 h (fun s => match slotOfHdr h s with | some slot => stopJob slot h.tag.toNat s | none => s) s)

end Sys2Proof.Machine
end

