-- ==== Sys2Proof/Machine/Run.lean ====
section
/-! DEFINITION. How an engine command runs: whole and indivisible (assumption 22), over the translations its descriptor
holds. It reads and writes lines at their homes; a value that is not on this Slosin is a free value. -/

namespace Sys2Proof.Machine

/-- What a running command holds. -/
structure EngS where
  st : State
  id : Nat
  c : Comp
  runs : List Run
  inp : EngIn
  bytes : Nat := 0
  dropped : Nat := 0
  detail : Nat := 0
  status : Nat := 0
  consumed : Bool := false
  /-- Never-written pages it has counted (R81: one for each page read). -/
  nw : List Nat := []

/-- A command's step: it may end early with a status. -/
abbrev Eng := ExceptT Nat (StateM EngS)

/-- Change the machine. -/
def engMod (f : State → State) : Eng Unit := modify (fun e => { e with st := f e.st })

/-- Take a free value. -/
def engFree (w : Nat) : Eng (BitVec w) := do
  let (v, s) := takeFree w (← get).st
  modify (fun e => { e with st := s })
  return v

/-- Count bytes of operand data. -/
def engBytes (n : Nat) : Eng Unit := modify (fun e => { e with bytes := e.bytes + n })

/-- The command works on a range without consuming operand data: what BYTES_DONE shows is left open (R189). -/
def engBytesOpen : Eng Unit := do
  let n ← engFree 64
  engBytes n.toNat

/-- Count dropped elements. -/
def engDrop (n : Nat) : Eng Unit := modify (fun e => { e with dropped := e.dropped + n })

/-- The command has consumed bittern (R111). -/
def engConsume (b : Bool) : Eng Unit := if b then modify (fun e => { e with consumed := true }) else pure ()

/-! ### Lines at their homes -/

/-- A page that a fill, a version copy or a closing holds is settled before an engine touches it. -/
def settlePage (page : Nat) (s : State) : State := s |> endFill page |> endCopy page |> endExhaust page

/-- An engine's access goes no further: unbacked (R63). -/
def engUnbacked {α : Type} : Eng α := do
  engMod (fun s => s)
  let e ← get
  engMod (finc (CMP_UNBACKED_CNT e.c.slot))
  throw 0x12

/-- A fresh access to a lower tier for a command: it must land before the record is written (R190). -/
def newAccess (desc slot : Nat) (t : Tier) (s : State) : Nat × State :=
  let id := s.coh.births
  (id, { s with coh := { s.coh with births := id + 1 },
                mem := { s.mem with tier := s.mem.tier ++ [{ id, tier := t, slot, desc, piece := 0 }] } })

/-- Read the current data of a line: its value and its mark. -/
def engLine (line : Nat) : Eng (Line × Bool) := do
  let e ← get
  let c := e.c
  match homeOf c (line * 64) e.st with
  | .here (.at_ p) =>
    if !tierUp p e.st then throw 0x13
    let page := p / 4096
    engMod (settlePage page)
    match splitPa c (line * 64) with
    | some (_, l) => engMod (heat c.slot l false false)
    | none => pure ()
    if e.inp.ue.contains (p / 64) then engMod (meetEcc c.slot p .ue)
    else if e.inp.ce.contains (p / 64) then engMod (meetEcc c.slot p .ce)
    let s := (← get).st
    match peekLine c line s with
    | .data l b =>
      if !isWritten page s && !e.nw.contains page then
        engMod (finc (CMP_NW_READ_CNT c.slot))
        modify (fun e => { e with nw := page :: e.nw })
      return (l, b)
    | _ =>
      engMod (touchCur c line)
      let v ← engFree 512
      let b ← engFree 1
      return (v, b == 1)
  | .here .unallotted => throw 0x13
  | .member _ n =>
    if fbit (FAB_ROUTE_UNREACHABLE n) e.st then throw 0x13
    engMod (fun s =>
      let (id, s) := newAccess e.id c.slot (.peer (BitVec.ofNat 12 n)) s
      (sendReq 0x07 n c.cmpId (line * 64) 0 [] false (.access id) s).2)
    let v ← engFree 512
    let b ← engFree 1
    return (v, b == 1)
  | _ => engUnbacked

/-- Keep a page's old contents for the newest harvest of its region before a write (R99, R106). -/
def keepOld (slot pa page : Nat) (s : State) : State :=
  match copyNeed slot pa page s with
  | .nothing => s
  | .zero => recordPage slot pa none s
  | .copy =>
    let s := if blocksUsed slot s < reserveBlocks slot s then s
      else exhaustFor slot ((regionAt slot pa s).map (·.base) |>.getD 0) s
    match copyNeed slot pa page s with
    | .copy => recordPage slot pa (some (pageBlock page s)) s
    | .zero => recordPage slot pa none s
    | .nothing => s

/-- Every copy of a line is invalidated, its data discarded: the engine's write has taken its place (R138). -/
def dropCopies (slot line : Nat) (s : State) : State :=
  let d := getDir slot line s
  let tiles := (d.sharers ++ d.fw.toList ++ d.owner.toList).filterMap (fun a => match a with | .tile t => some t | _ => none)
  let s := each tiles (fun t s => setCopy t slot line {} s) s
  recallLine .discard slot line s

/-- Write bytes of a line homed here, at physical address `p`. `mark`: a bittern value went into them. -/
def storeHere (slot line p : Nat) (base data : Line) (mask : BitVec 64) (mark : Bool) (s : State) : State :=
  let page := p / 4096
  let full := mask = BitVec.allOnes 64
  let s := s |> sealTouched slot |> keepOld slot (line * 64) page |> noteDirtied page
  let s := { s with mem := { s.mem with written := kin s.mem.written page true } }
  s |> setCells (p / 64) (overlay base data mask) (BitVec.allOnes 64)
    |> (if mark then setBittern slot (p / 64) true else if full then setBittern slot (p / 64) false else fun s => s)

/-- Write bytes of a line at its home. -/
def engStore (line : Nat) (data : Line) (mask : BitVec 64) (mark : Bool) : Eng Unit := do
  let e ← get
  let c := e.c
  match homeOf c (line * 64) e.st with
  | .here (.at_ p) =>
    if !tierUp p e.st then throw 0x13
    engMod (settlePage (p / 4096))
    let base ← match peekLine c line (← get).st with
      | .data l _ => pure l
      | _ => if mask == BitVec.allOnes 64 then pure 0 else engFree 512
    match splitPa c (line * 64) with
    | some (_, l) => engMod (heat c.slot l true false)
    | none => pure ()
    engMod (fun s => if (kget? s.coh.dir (lineKey c.slot line)).isSome then dropCopies c.slot line s else s)
    engMod (storeHere c.slot line p base data mask mark)
  | .here .unallotted => throw 0x13
  | .member _ n =>
    if fbit (FAB_ROUTE_UNREACHABLE n) e.st then throw 0x13
    engMod (fun s =>
      let (id, s) := newAccess e.id c.slot (.peer (BitVec.ofNat 12 n)) s
      let full := mask == BitVec.allOnes 64
      (sendReq (if full then 0x08 else 0x09) n c.cmpId (line * 64) (if full then 0 else mask.toNat) (lineSlots data) mark
        (.access id) s).2)
  | _ => engUnbacked

/-! ### Views (R97, R104) -/

/-- Read a line of a view homed here. -/
def viewLine (hvid page lineInPage : Nat) : Eng (Line × Bool) := do
  let e ← get
  match viewSrc e.c.slot hvid page lineInPage e.st with
  | .kept l b => return (l, b)
  | .current line => engLine line
  | .beyond => engUnbacked
  | .closed => throw 0x15

/-! ### Ranges of virtual addresses -/

/-- An access to host-tier memory of an agent that is dead or attaches nowhere fails (R87, R110). -/
def hostUp (agent : Nat) : Eng Unit := do
  let e ← get
  if kmem e.st.hv.dead (e.c.slot * 256 + agent) || (entryOfAgent e.c.slot agent e.st).isNone then throw 0x13

/-- The line that holds the byte at a virtual address. -/
def engVaLine (va : Nat) : Eng (Line × Bool) := do
  let e ← get
  match runAt e.runs va with
  | none => throw 0x12
  | some (t, _) =>
    match t with
    | .pool a => engLine (a / 64)
    | .host g _ =>
      hostUp g
      let v ← engFree 512
      let b ← engFree 1
      return (v, b == 1)
    | .view m h p =>
      match e.c.members[m]? with
      | some n =>
        if n = myNode e.st then viewLine h p (va % 4096 / 64)
        else
          if fbit (FAB_ROUTE_UNREACHABLE n) e.st then throw 0x13
          let v ← engFree 512
          let b ← engFree 1
          return (v, b == 1)
      | none => engUnbacked

/-- Stop as an access to the line that holds `va` would stop, with no other effect: an update block commits whole or not
at all, so all its lines are looked at before the first is written (R246, R294, R319). -/
def reachLine (va : Nat) : Eng Unit := do
  let e ← get
  match runAt e.runs va with
  | none => throw 0x12
  | some (.pool a, _) =>
    match homeOf e.c (a / 64 * 64) e.st with
    | .here (.at_ p) => if tierUp p e.st then pure () else throw 0x13
    | .here .unallotted => throw 0x13
    | .member _ n => if fbit (FAB_ROUTE_UNREACHABLE n) e.st then throw 0x13
    | _ => engUnbacked
  | some (.host g _, _) => hostUp g
  | some (.view m h p, _) =>
    match e.c.members[m]? with
    | some n =>
      if n = myNode e.st then discard (viewLine h p (va % 4096 / 64))
      else if fbit (FAB_ROUTE_UNREACHABLE n) e.st then throw 0x13
    | none => engUnbacked

/-- Look at the lines of `n` bytes. -/
def reachGo : Nat → Nat → Nat → Eng Unit
  | 0, _, _ => pure ()
  | f + 1, va, n => do
    if n = 0 then return ()
    reachLine va
    let k := min (64 - va % 64) n
    reachGo f (va + k) (n - k)

/-- See `reachGo`. -/
def reachVa (va n : Nat) : Eng Unit := reachGo (n / 64 + 2) va n

/-- Read `n` bytes at a virtual address, line by line: the bytes and whether any line was bittern. `fuel` bounds the
lines. -/
def readGo : Nat → Nat → Nat → List Byte → Bool → Eng (List Byte × Bool)
  | 0, _, _, acc, bit => pure (acc, bit)
  | f + 1, va, n, acc, bit => do
    if n = 0 then return (acc, bit)
    let (l, b) ← engVaLine va
    let k := min (64 - va % 64) n
    readGo f (va + k) (n - k) (acc ++ ((lineBytes l).drop (va % 64)).take k) (bit || b)

/-- Read bytes, each with the mark of its line. -/
def readMarkedGo : Nat → Nat → Nat → List (Byte × Bool) → Eng (List (Byte × Bool))
  | 0, _, _, acc => pure acc
  | f + 1, va, n, acc => do
    if n = 0 then return acc
    let (l, b) ← engVaLine va
    let k := min (64 - va % 64) n
    readMarkedGo f (va + k) (n - k) (acc ++ (((lineBytes l).drop (va % 64)).take k).map (fun x => (x, b)))

/-- See `readMarkedGo`. -/
def readMarked (va n : Nat) : Eng (List (Byte × Bool)) := readMarkedGo (n / 64 + 2) va n []

/-- Elements of `w` bits of a bit string of marked bytes: value and mark. `off` is the bit where the first begins. -/
def sliceElems (w n off : Nat) (bs : List (Byte × Bool)) : List (Nat × Bool) :=
  (List.range n).map (fun i =>
    let lo := off + i * w
    let mine := (bs.drop (lo / 8)).take ((lo % 8 + w + 7) / 8)
    (bitsOf (leNat (mine.map (·.1))) (lo % 8) w, mine.any (·.2)))

/-- Elements `first` to `first + n - 1` of a dense array of elements of `w` bits. -/
def readDense (va w first n : Nat) : Eng (List (Nat × Bool)) := do
  let lo := first * w
  let bs ← readMarked (va + lo / 8) ((lo % 8 + n * w + 7) / 8)
  return sliceElems w n (lo % 8) bs

/-- Read bytes. -/
def readVa (va n : Nat) : Eng (List Byte × Bool) := readGo (n / 64 + 2) va n [] false

/-- Read a little-endian number. -/
def readNum (va n : Nat) : Eng (Nat × Bool) := do
  let (bs, b) ← readVa va n
  return (leNat bs, b)

/-- Write part of the line that holds `va`. -/
def storeVa (va : Nat) (bs : List Byte) (mark : Bool) : Eng Unit := do
  let e ← get
  match runAt e.runs va with
  | none => throw 0x12
  | some (t, wr) =>
    if !wr then throw 0x12
    match t with
    | .pool a =>
      let o := a % 64
      let data : Line := BitVec.ofNat 512 (leNat bs * 2 ^ (8 * o))
      let mask : BitVec 64 := BitVec.ofNat 64 ((2 ^ bs.length - 1) * 2 ^ o)
      engStore (a / 64) data mask mark
    | .host g a =>
      hostUp g
      engMod (emit (.tierWrite g a bs mark))
    | .view _ _ _ => throw 0x12

/-- Write bytes at a virtual address, line by line. -/
def writeGo : Nat → Nat → List Byte → Bool → Eng Unit
  | 0, _, _, _ => pure ()
  | f + 1, va, bs, mark => do
    if bs.isEmpty then return ()
    let k := 64 - va % 64
    storeVa va (bs.take k) mark
    writeGo f (va + k) (bs.drop k) mark

/-- Write bytes. -/
def writeVa (va : Nat) (bs : List Byte) (mark : Bool) : Eng Unit := writeGo (bs.length / 64 + 2) va bs mark

/-- Write marked bytes, line by line: a line is marked when any of its bytes is. -/
def writeMarkedGo : Nat → Nat → List (Byte × Bool) → Eng Unit
  | 0, _, _ => pure ()
  | f + 1, va, bs => do
    if bs.isEmpty then return ()
    let k := 64 - va % 64
    let h := bs.take k
    storeVa va (h.map (·.1)) (h.any (·.2))
    writeMarkedGo f (va + k) (bs.drop k)

/-- See `writeMarkedGo`. -/
def writeMarked (va : Nat) (bs : List (Byte × Bool)) : Eng Unit := writeMarkedGo (bs.length / 64 + 2) va bs

/-- Pack elements of `w` bits into marked bytes; the first begins at a byte. -/
def packElems (w : Nat) (es : List (Nat × Bool)) : List (Byte × Bool) :=
  let n := es.foldr (fun e a => e.1 % 2 ^ w + a * 2 ^ w) 0
  (List.range ((es.length * w + 7) / 8)).map (fun i =>
    (BitVec.ofNat 8 (n / 2 ^ (8 * i)),
     (List.range ((8 + w - 1) / w + 1)).any (fun j => (es[(8 * i) / w + j]?).any (fun e => e.2 && ((8 * i) / w + j) * w < 8 * i + 8))))

/-- Write elements of a dense array from element `first` on. -/
def writeDense (va w first : Nat) (es : List (Nat × Bool)) : Eng Unit := writeMarked (va + first * w / 8) (packElems w es)

/-- Work of a descriptor outside its command's own step: the end of the work, the machine, and what it counted. -/
def engOn {α : Type} (id : Nat) (m : Eng α) (s : State) : Option (Except Nat α) × State :=
  match descOf id s with
  | none => (none, s)
  | some d =>
    match compOfSluice d.sluice s with
    | none => (none, s)
    | some c =>
      let (r, e) := (m.run).run { st := s, id, c, runs := d.runs, inp := {}, bytes := d.bytes, dropped := d.dropped,
                                  consumed := d.consumed }
      (some r, modDesc id (fun d => { d with bytes := e.bytes, dropped := e.dropped, consumed := e.consumed }) e.st)

/-! ### Running a command -/

/-- A descriptor's runs name capacity that a delta in progress takes away (R48, R49). -/
def heldByDelta (c : Comp) (runs : List Run) (s : State) : Bool :=
  runs.any (fun r => match r.target with
    | .pool a =>
      let hit (pa : Nat) : Bool := match splitPa c pa with
        | some (i, l) => c.members[i]? == some (myNode s) && isLeaving c l s
        | none => false
      hit a || hit (a + r.len - 1)
    | _ => false)

/-- Run the work of descriptor `id` when it is a running `eng`/`opc` descriptor that has not worked yet. -/
def runEng (eng opc id : Nat) (inp : EngIn) (f : BitVec 1024 → Eng Unit) (s : State) : State :=
  match descOf id s with
  | none => s
  | some d =>
    if d.phase != .running || d.worked || dEng d.raw ≠ eng || dOpc d.raw ≠ opc then s else
    match compOfSluice d.sluice s with
    | none => s
    | some c =>
      if heldByDelta c d.runs s then finc (CMP_DELTA_HOLD_CNT c.slot) s else
      let s := if d.stale then restartXlate id s else s
      match descOf id s with
      | none => s
      | some d =>
        if d.phase != .running then s else
        let (r, e) := ((f d.raw).run).run { st := s, id, c, runs := d.runs, inp }
        let status := match r with
          | .error x => if e.consumed && x < 0x10 then 0x10 else x
          | .ok _ => if e.consumed then 0x10 else e.status
        let s := each inp.stall (fun x => addStall id x.1.val x.2) e.st
        -- how much of a command that failed midway had committed is open: a piece covers at most 64 KiB (R216)
        let midway : Bool := match r with | .error x => x > 0x10 && e.bytes > 0 | .ok _ => false
        let (n, s) := if midway then takeFree 64 s else (0, s)
        let bytes := if midway then n.toNat % (e.bytes + 1) else e.bytes
        modDesc id (fun d => if d.phase == .finished then d else
          { d with phase := (if d.phase == .waiting then .waiting else .finished), status := (if d.phase == .waiting then d.status else status),
                   bytes, dropped := e.dropped, detail := e.detail, worked := true, consumed := e.consumed }) s

/-- Put the running descriptor in wait for a later event of its command. -/
def engWait : Eng Unit := do
  let e ← get
  engMod (modDesc e.id (fun d => { d with phase := .waiting }))

/-- Finish a waiting descriptor with a status, after some last work of it. -/
def finishWith (id status : Nat) (m : Eng Unit) (s : State) : State :=
  match descOf id s with
  | none => s
  | some d =>
    if d.phase == .finished || d.phase == .skipped then s else
    match compOfSluice d.sluice s with
    | none => s
    | some c =>
      let (r, e) := (m.run).run { st := s, id, c, runs := d.runs, inp := {}, bytes := d.bytes }
      let status := match r with | .error x => x | .ok _ => status
      modDesc id (fun d => { d with phase := .finished, status, bytes := e.bytes, worked := true }) e.st

/-- The lines of pool addresses that runs map. -/
def runLines (runs : List Run) : List Nat :=
  runs.flatMap (fun r => match r.target with
    | .pool a => (List.range ((a + r.len - 1) / 64 - a / 64 + 1)).map (fun i => a / 64 + i)
    | _ => [])

end Sys2Proof.Machine
end

