-- ==== Sys2Proof/Machine/Harvest.lean ====
section
/-! DEFINITION. Harvests, heartbeats and the maintenance of caches (chapter 4, and R143 to R145). -/

namespace Sys2Proof.Machine

/-! ### Lifecycle (R104 to R107) -/

/-- The region with a base. -/
def regionBase (slot base : Nat) (s : State) : Option Region :=
  s.hv.regions.find? (fun r => r.slot == slot && r.base == base)

/-- A harvest ends and its interval joins that of the live harvest before it (R105). A block of a page that the older
harvest recorded as never-written does not pass: the older one reads zeros there (R97). -/
def freeHarvest (version : Nat) (hs : List Harvest) : List Harvest :=
  match hs.find? (fun h => h.version == version) with
  | none => hs
  | some h =>
    let older := ((hs.takeWhile (fun x => x.version != version)).filter isLive).getLast?
    let rest := hs.filter (fun x => x.version != version)
    match older with
    | none => rest
    | some o =>
      let has (p : Nat) : Bool := (kget? o.blocks p).isSome || kmem o.zeros p
      let o' := { o with
        blocks := h.blocks.foldl (fun m b => if has b.1 then m else kput m b.1 b.2) o.blocks,
        zeros := h.zeros.foldl (fun m z => if has z.1 then m else kin m z.1 true) o.zeros }
      rest.map (fun x => if x.version == o.version then o' else x)

/-- Change the harvest of a version. -/
def modHarvest (slot base version : Nat) (f : Harvest → Harvest) (s : State) : State :=
  modRegion slot base (fun r => { r with harvests := r.harvests.map (fun h => if h.version == version then f h else h) }) s

/-- End a harvest: its blocks pass or return. -/
def endHarvest (slot base version : Nat) (s : State) : State :=
  s |> modRegion slot base (fun r => { r with harvests := freeHarvest version r.harvests }) |> updateUse slot

/-- Every harvest of a region closes and the region ends (R107): views keep its base. -/
def endRegion (slot base : Nat) (s : State) : State :=
  let s := closeUntil slot base false true 4096 s
  let s := { s with hv := { s.hv with
    regions := s.hv.regions.filter (fun r => !(r.slot == slot && r.base == base)),
    views := s.hv.views.map (fun v => if v.slot == slot && v.base == base then { v with closed := true } else v) } }
  updateUse slot s

/-! ### Answers -/

/-- DETAIL of a harvest command that its home finds malformed: the first field at fault (R94, R189). -/
def hvDetail (q : HvCmd) (status : Nat) : Nat :=
  if status ≠ 0x20 then 0 else if q.opc = 0x40 && q.policy > 1 then 14 else if q.pa % 4096 ≠ 0 then 16 else 24

/-- A harvest command ends: its result word is written and its descriptor finished, here or where it came from (R92,
R94). `word` is the result word of PUBLISH and OPEN. -/
def hvAnswer (q : HvCmd) (status word : Nat) (s : State) : State :=
  match q.fwd with
  | some (node, tag) =>
    let r := recordNat q.seq status 0 false 0 word 0 (hvDetail q status) 0 0 0
    send 0x4E node (cmpIdOf q.slot s) tag q.pa 0 [BitVec.ofNat 128 r, BitVec.ofNat 128 (r / 2 ^ 128)] false s
  | none =>
    let write : Bool := status < 0x10 && (q.opc == 0x41 || q.opc == 0x42)
    s |> finishWith q.desc status (do
      if write then
        match descOf q.desc s with
        | some d => writeVa (db d.raw 40 8) (natLe 8 word) false
        | none => pure ())
      |> onlyIf (status = 0x20) (modDesc q.desc (fun d => { d with detail := hvDetail q status }))

/-! ### The checks and effects (R91 to R94) -/

/-- The pages of a range have a place that answers (R94). -/
def rangeUp (c : Comp) (pa : Nat) (s : State) : Nat → Bool
  | 0 => true
  | n + 1 =>
    (match homeOf c (pa + n * 4096) s with
     | .here (.at_ p) => tierUp p s
     | .here .unallotted => false
     | _ => true) && rangeUp c pa s n

/-- A range lies on this member within one window (R62, R91). -/
def oneWindow (c : Comp) (pa len : Nat) (s : State) : Bool :=
  match splitPa c pa, splitPa c (pa + len - 1) with
  | some (i, l), some (j, m) => i = j && c.members[i]? = some (myNode s) && (decide (l < farWindow) == decide (m < farWindow))
  | _, _ => false

/-- The harvest an OPEN names. -/
def openTarget (r : Region) (version : Nat) : Option Harvest :=
  let open_ := r.harvests.filter (fun h => h.st == .live || h.st == .held)
  if version = 0xFFFFFFFF then open_.getLast? else open_.find? (fun h => h.version == version)

/-- The view an HVID names in its generation. -/
def viewOf (slot hvid : Nat) (s : State) : Option View :=
  s.hv.views.find? (fun v => v.slot == slot && v.vslot == hvid % 4096 && v.gen == hvid / 4096)

/-- The failure of a harvest command at the home, first in the order of the table of R94. -/
def hvCheck (q : HvCmd) (c : Comp) (s : State) : Option Nat :=
  let r := regionBase q.slot q.pa s
  let overlap := s.hv.regions.any (fun x => x.slot == q.slot && x.base < q.pa + q.length && q.pa < x.base + x.length)
  let declare := q.opc = 0x40
  if q.pa % 4096 ≠ 0 || (declare && (q.length % 4096 ≠ 0 || q.length = 0 || q.policy > 1)) then some 0x20
  else if !c.harvestEn then some 0x12
  else if declare && (!rangeBacked c q.pa q.length s || !oneWindow c q.pa q.length s || overlap) then some 0x12
  else if !declare && q.opc ≠ 0x43 && r.isNone then some 0x12
  else if declare && !rangeUp c q.pa s (q.length / 4096) then some 0x13
  else if declare && (s.hv.regions.filter (fun x => x.slot == q.slot)).length ≥ 1024 then some 0x16
  else if q.opc = 0x42 && (s.hv.views.filter (fun x => x.slot == q.slot)).length ≥ 4096 then some 0x16
  else if q.opc = 0x41 && r.any (fun r => (r.harvests.filter isLive).length ≥ 16 || r.lastVersion ≥ 0xFFFFFFFE) then some 0x16
  else if q.opc = 0x42 && (r.bind (openTarget · q.version)).isNone then some 0x15
  else if q.opc = 0x44 && !r.any (fun r => r.harvests.any (fun h => h.version == q.version && (h.st == .live || h.st == .held))) then
    some 0x15
  else if q.opc = 0x43 && !(viewOf q.slot q.hvid s).any (fun v => v.base == q.pa && v.closing.isNone) then some 0x15
  else none

/-- The lowest free view slot of a composition. -/
def freeView (slot : Nat) (s : State) : Nat :=
  ((List.range 4096).find? (fun i => !s.hv.views.any (fun v => v.slot == slot && v.vslot == i))).getD 0

/-- OPEN: a view of a harvest. -/
def openView (q : HvCmd) (h : Harvest) (s : State) : State :=
  let i := freeView q.slot s
  let gen := kgetD s.hv.viewGen (q.slot * 4096 + i) 0
  let v : View := { slot := q.slot, vslot := i, gen, base := q.pa, version := h.version }
  { s with hv := { s.hv with views := s.hv.views ++ [v] } }
    |> modHarvest q.slot q.pa h.version (fun h => { h with refs := h.refs + 1, st := .held })
    |> hvAnswer q 0 (h.version + (gen * 4096 + i) * 2 ^ 48)

/-- Transfers of this Slosin that read through a view are in flight (R101). -/
def viewInUse (slot hvid : Nat) (s : State) : Bool :=
  s.slc.descs.any (fun d => d.slot == slot && d.started && d.phase != .finished && d.phase != .skipped
    && d.runs.any (fun r => match r.target with
      | .view m h _ => h == hvid && ((compAt slot s).bind (fun c => c.members[m]?)) == some (myNode s)
      | _ => false))

/-- Free a view: its slot's generation rises and its harvest loses a reference (R101, R107). -/
def freeViewOf (v : View) (s : State) : State :=
  let s := { s with hv := { s.hv with
    views := s.hv.views.filter (fun x => !(x.slot == v.slot && x.vslot == v.vslot)),
    viewGen := kset s.hv.viewGen (v.slot * 4096 + v.vslot) ((v.gen + 1) % 16) 0 } }
  match (regionBase v.slot v.base s).bind (fun r => r.harvests.find? (fun h => h.version == v.version)) with
  | none => s
  | some h =>
    if h.refs > 1 then modHarvest v.slot v.base v.version (fun h => { h with refs := h.refs - 1 }) s
    else match h.st with
      | .retiring => endHarvest v.slot v.base v.version s
      | .closed => modRegion v.slot v.base (fun r => { r with harvests := r.harvests.filter (fun x => x.version != v.version) }) s
      | _ => modHarvest v.slot v.base v.version (fun h => { h with refs := 0, st := .live }) s

/-- The effect of a harvest command that passed its checks. -/
def hvEffect (q : HvCmd) (c : Comp) (s : State) : State :=
  match q.opc with
  | 0x40 =>
    let r : Region := { slot := q.slot, base := q.pa, length := q.length, isProtected := q.policy = 1 }
    { s with hv := { s.hv with regions := s.hv.regions ++ [r] } } |> hvAnswer q 0 0
  | 0x41 =>
    let len := ((regionBase q.slot q.pa s).map (·.length)).getD 0
    s |> modRegion q.slot q.pa (fun r => { r with publishing := some q })
      |> onlyIf (!c.software) (recallRange .keep q.slot q.pa len)
  | 0x42 => match (regionBase q.slot q.pa s).bind (openTarget · q.version) with
    | some h => openView q h s
    | none => s
  | 0x43 =>
    { s with hv := { s.hv with views := s.hv.views.map (fun v =>
        if v.slot == q.slot && v.vslot == q.hvid % 4096 then { v with closing := some q } else v) } }
  | 0x44 =>
    match (regionBase q.slot q.pa s).bind (fun r => r.harvests.find? (fun h => h.version == q.version)) with
    | some h =>
      (if h.st = .live then endHarvest q.slot q.pa q.version s
       else modHarvest q.slot q.pa q.version (fun h => { h with st := .retiring }) s) |> hvAnswer q 0 0
    | none => s
  | _ => s |> endRegion q.slot q.pa |> hvAnswer q 0 0

/-- A command of a region is in progress, so that later ones wait (R102). -/
def regionBusy (slot base : Nat) (s : State) : Bool :=
  (regionBase slot base s).any (fun r => r.publishing.isSome)
    || ((regionBase slot base s).isSome && s.hv.views.any (fun v => v.slot == slot && v.base == base && v.closing.isSome))

/-- One harvest command in its turn. -/
def hvRun (q : HvCmd) (s : State) : State :=
  match compAt q.slot s with
  | none => hvAnswer q 0x3F 0 s
  | some c =>
    match hvCheck q c s with
    | some st => hvAnswer q st 0 s
    | none => hvEffect q c s

/-- A harvest command reaches the home of its region: it waits behind the commands before it (R102). -/
def hvArrive (q : HvCmd) (s : State) : State :=
  if regionBusy q.slot q.pa s then modRegion q.slot q.pa (fun r => { r with queue := r.queue ++ [q] }) s
  else hvRun q s

/-- The commands that waited proceed: an UNDECLARE among them ends the region, and those behind it find none. -/
def hvQueue (slot base : Nat) (s : State) : State :=
  match regionBase slot base s with
  | none => s
  | some r => s |> modRegion slot base (fun r => { r with queue := [] }) |> each r.queue hvArrive

/-- The cut (R95): once the recalls have ended and what they brought home is applied. -/
def harvestCut (slot base : Nat) (s : State) : State :=
  match regionBase slot base s with
  | none => s
  | some r =>
    match r.publishing with
    | none => s
    | some q =>
      let inside (a : Acc) : Bool := a.slot == slot && base ≤ a.line * 64 && a.line * 64 < base + r.length
      if !rangeQuiet slot base r.length s || s.mem.waits.any (fun a => a.back && inside a) then s else
      let v := r.lastVersion + 1
      let h : Harvest := { version := v, cut := s.hv.cuts }
      { s with hv := { s.hv with cuts := s.hv.cuts + 1 } }
        |> modRegion slot base (fun r => { r with lastVersion := v, harvests := r.harvests ++ [h], publishing := none })
        |> updateUse slot |> hvAnswer q 0 v
        |> rerun (fun a s => inside a && !((accPage a s).any (fun p => isBusy p s)))
        |> hvQueue slot base

/-- The transfers through a closing view have finished (R101). -/
def closeDrained (slot hvid : Nat) (s : State) : State :=
  match viewOf slot hvid s with
  | none => s
  | some v =>
    match v.closing with
    | none => s
    | some q => if viewInUse slot hvid s then s else s |> freeViewOf v |> hvAnswer q 0 0 |> hvQueue slot v.base

/-- The harvest command a descriptor holds. -/
def hvCmdOf (slot : Nat) (raw : BitVec 1024) : HvCmd :=
  { opc := dOpc raw, slot, pa := db raw 16 8, length := db raw 24 8, policy := db raw 14 1, version := db raw 32 4,
    hvid := db raw 12 2, seq := dSeq raw }

/-- A harvest command of a descriptor: executed here, or forwarded to the home of REGION_PA (R92). -/
def harvestCmd (opc id : Nat) (s : State) : State :=
  match descOf id s with
  | none => s
  | some d =>
    if d.phase != .running || d.worked || dEng d.raw ≠ 0 || dOpc d.raw ≠ opc then s else
    match compOfSluice d.sluice s with
    | none => s
    | some c =>
      let q := { hvCmdOf c.slot d.raw with desc := id }
      let wait := modDesc id (fun d => { d with phase := .waiting, worked := true })
      match homeOf c q.pa s with
      | .member _ n =>
        if fbit (FAB_ROUTE_UNREACHABLE n) s then endWork id 0x13 s else
        let slots := (List.range 4).map (fun i => BitVec.ofNat 128 (db d.raw (16 * i) 16))
        (sendReq 0x0C n c.cmpId q.pa 0 slots false (.engine id) (wait s)).2
      | _ =>
        let leaving : Bool := (splitPa c q.pa).any (fun x => isLeaving c x.2 s)
        if leaving = true then finc (CMP_DELTA_HOLD_CNT c.slot) s else s |> wait |> hvArrive q

/-- A forwarded engine descriptor arrives at the home (R92). -/
def onEngFwd (k : Pkt) (s : State) : State :=
  let h := k.hdr
  match compById h.cmpId.toNat s with
  | none => sendNak h 4 s
  | some c =>
    if c.state = .failed then sendNak h 5 s else
    let raw : BitVec 1024 := BitVec.ofNat 1024 (slotsNat (k.body.take 4))
    hvArrive { hvCmdOf c.slot raw with fwd := some (h.src.toNat, h.tag.toNat) } s

/-- The completion of a forwarded command (R92): its result word, then its own completion. -/
def onEngCmp (k : Pkt) (s : State) : State :=
  let tag := k.hdr.tag.toNat
  match kget? s.fab.tags tag with
  | some ⟨_, .engine d, _⟩ =>
    let r := slotsNat (k.body.take 2)
    let s := freeTag tag s
    match descOf d s with
    | some x => s |> hvAnswer { hvCmdOf x.slot x.raw with desc := d } (bitsOf r 32 8) (bitsOf r 64 64)
      |> onlyIf (bitsOf r 32 8 ≥ 0x10) (modDesc d (fun d => { d with detail := bitsOf r 192 32 }))
    | none => s
  | _ => s

/-! ### Heartbeats and dead hosts (R110, R130) -/

/-- Key of an agent of a composition. -/
def agentKey (slot agent : Nat) : Nat := slot * 256 + agent

/-- A host agent is declared dead. -/
def hostDead (slot agent : Nat) (s : State) : State :=
  match compAt slot s with
  | none => s
  | some c =>
    let key := agentKey slot agent
    let s := { s with hv := { s.hv with armed := kin s.hv.armed key false, dead := kin s.hv.dead key true } }
    let s := onlyIf (!c.software) (agentLost slot (.host agent)) s
    let gone := (s.mem.tier.filter (fun a => match a.tier with | .host g => a.slot == slot && g.toNat == agent | _ => false)).map (·.id)
    let s := each gone (fun id s => accessOver id 0x13 s) s
    let mine (h : HostSnp) : Bool := h.slot == slot && fget (PRT_AGENT_AGENT h.port h.entry) s == agent
    let invals := (s.coh.hostSnps.filter mine).filterMap (·.inval)
    let s := each invals invalFailed { s with coh := { s.coh with hostSnps := s.coh.hostSnps.filter (fun h => !mine h) } }
    each c.members (fun n s => if n = myNode s then s else send 0x89 n c.cmpId 0 0 agent [] false s) s
      |> eventF 0x0014 c.cmpId

/-- A heartbeat of an agent: its timer starts again (R110). -/
def recordBeat (slot agent : Nat) (s : State) : State :=
  { s with hv := { s.hv with armed := kin s.hv.armed (agentKey slot agent) true } }

/-- HEARTBEAT_MS passed without a further heartbeat. -/
def heartbeatTimeout (slot agent : Nat) (s : State) : State :=
  if kmem s.hv.armed (agentKey slot agent) then hostDead slot agent s else s

/-! ### Cache maintenance (R143, R144) -/

/-- CACHE_INVAL: under COHERENCE = 1 the line caches of this member drop their copies of the range. -/
def cacheInval (_ : BitVec 1024) : Eng Unit := do
  engBytesOpen
  let e ← get
  if e.c.software then
    let slot := e.c.slot
    let drop (line : Nat) (s : State) : State :=
      each (List.range 32) (fun t s =>
        if (kget? s.coh.copies (copyKey t slot line)).isSome then s |> writeBackDirty t slot line |> setCopy t slot line {}
        else s) s
    engMod (each (runLines e.runs) drop)

/-- The agent entries of a composition on this Slosin's ports. -/
def agentEntries (slot : Nat) (s : State) : List (Nat × Nat) :=
  (List.range 24).flatMap (fun p => ((List.range 16).filter (fun k =>
    fbit (PRT_AGENT_VALID p k) s && fget (PRT_AGENT_SLOT p k) s == slot)).map (fun k => (p, k)))

/-- Agents of a composition that attach to another member, and its node (R129). -/
def awayAgents (slot : Nat) (s : State) : List (Nat × Nat) :=
  (s.coh.routes.filter (fun r => r.1 / 256 == slot && r.2 != myNode s)).map (fun r => (r.1 % 256, r.2))

/-- The SnpInv of a HOST_INVAL descriptor for an agent that attaches to another member: its BIRsp returns under the tag. -/
def invalAway (d slot line agent node : Nat) (s : State) : State :=
  let (tag, s) := newTag node (.inval d slot line) s
  send 0x22 node (cmpIdOf slot s) tag (line * 64)
    (myNode s + tag * 2 ^ 16 + fget FAB_NODE_INCARNATION s * 2 ^ 32 + agent * 2 ^ 48 + 2 ^ 56) [] false s

/-- HOST_INVAL: under COHERENCE = 1 a BISnpInv to every host agent for each line (R143). The descriptor waits for the
answers. -/
def hostInval (_ : BitVec 1024) : Eng Unit := do
  engBytesOpen
  let e ← get
  let ents := agentEntries e.c.slot e.st
  let away := awayAgents e.c.slot e.st
  let lines := runLines e.runs
  if e.c.software && !lines.isEmpty && !(ents.isEmpty && away.isEmpty) then
    let slot := e.c.slot
    engMod (each lines (fun line s => s
      |> each ents (fun x => biSnoop { port := x.1, entry := x.2, slot, line, snp := .inv, inval := some e.id })
      |> each away (fun x => invalAway e.id slot line x.1 x.2)))
    engMod (modDesc e.id (fun d => { d with phase := .waiting }))

/-- HARVEST_DECLARE (R92). -/
def execHarvestDeclare (d : Nat) (s : State) := ok (harvestCmd 0x40 d s)
/-- HARVEST_PUBLISH (R92). -/
def execHarvestPublish (d : Nat) (s : State) := ok (harvestCmd 0x41 d s)
/-- HARVEST_CUT (R95). -/
def execHarvestCut (slot : Fin 64) (base : BitVec 56) (s : State) := ok (harvestCut slot base.toNat s)
/-- HARVEST_OPEN (R92). -/
def execHarvestOpen (d : Nat) (s : State) := ok (harvestCmd 0x42 d s)
/-- HARVEST_CLOSE (R92). -/
def execHarvestClose (d : Nat) (s : State) := ok (harvestCmd 0x43 d s)
/-- HARVEST_CLOSE_DRAINED (R101). -/
def execHarvestCloseDrained (slot : Fin 64) (hvid : BitVec 16) (s : State) := ok (closeDrained slot hvid.toNat s)
/-- HARVEST_RETIRE (R92). -/
def execHarvestRetire (d : Nat) (s : State) := ok (harvestCmd 0x44 d s)
/-- HARVEST_UNDECLARE (R92). -/
def execHarvestUndeclare (d : Nat) (s : State) := ok (harvestCmd 0x45 d s)
/-- VERSION_COPY_DONE (R99). -/
def execVersionCopyDone (page : Nat) (ue : List Nat) (s : State) := ok (versionCopyDone page ue s)
/-- EXHAUST_WRITE_RESUME (R106). -/
def execExhaustWriteResume (page : Nat) (s : State) := ok (endExhaust page s)
/-- HEARTBEAT_TIMEOUT (R110). -/
def execHeartbeatTimeout (slot : Fin 64) (agent : BitVec 8) (s : State) := ok (heartbeatTimeout slot agent.toNat s)
/-- ENG_FWD (R92). -/
def execEngFwd (k : Pkt) (s : State) := ok (onArrival 0x0C k (onEngFwd k) s)
/-- ENG_CMP (R92). -/
def execEngCmp (k : Pkt) (s : State) := ok (onArrival 0x4E k (onEngCmp k) s)
/-- CACHE_INVAL (R143). -/
def execCacheInval (d : Nat) (s : State) := ok (runEng 0 0x48 d {} cacheInval s)
/-- HOST_INVAL (R143). -/
def execHostInval (d : Nat) (s : State) := ok (runEng 0 0x49 d {} hostInval s)

end Sys2Proof.Machine
end

