-- ==== Sys2Proof/Machine/Memory.lean ====
section
/-! DEFINITION. Pool memory over time (chapter 3): the allotment of frames (R40, R65, R67, R103), heat epochs, lower-tier
accesses that come back late or fail, and expanders that fail and return. -/

namespace Sys2Proof.Machine

/-! ### Near frames (R65, R103) -/

/-- Every composition that may hold frames: the present ones, and those of the image that wait (R542). -/
def frameHolders (s : State) : List Comp := s.comps ++ s.img.waiting

/-- Change a composition of `frameHolders`. -/
def modHolder (slot : Nat) (f : Comp → Comp) (s : State) : State :=
  let g (l : List Comp) : List Comp := l.map (fun c => if c.slot == slot then f c else c)
  { s with comps := g s.comps, img := { s.img with waiting := g s.img.waiting } }

/-- Near frames in use. -/
def nearUsed (s : State) : List Nat := (frameHolders s).flatMap (fun c => c.near ++ c.resvNear)

/-- The `n` lowest free near frames that are not in `used`. -/
def takeNear (used : List Nat) (n : Nat) : List Nat := ((List.range nearFrames).filter (fun f => !used.contains f)).take n

/-! ### Far frames (R67) -/

/-- The host-role links of the image: the leaders of their bonds (R36). -/
def hostLinks (s : State) : List Nat :=
  (List.range 24).filter (fun p => match s.img.ports[p]? with
    | some e => e[0]? == some 2 && e[1]? != some 3
    | none => false)

/-- Frames of far store in use on a port, as indices within its expander. -/
def farUsed (port : Nat) (s : State) : List Nat :=
  ((frameHolders s).flatMap (fun c => (c.far ++ c.resvFar).filterMap (fun x => x))).filterMap
    (fun f => if f / 2 ^ 21 = port then some (f % 2 ^ 21) else none)

/-- The lowest free frame of an expander. -/
def freeFar (e : Expander) (used : List Nat) : Option Nat :=
  (List.range (e.capacity / frameBytes)).find? (fun i => !used.contains i)

/-- The ports in the order of the rotation: from the pointer on, then round. -/
def farOrder (turn : Nat) (ports : List Nat) : List Nat := ports.filter (· ≥ turn) ++ ports.filter (· < turn)

/-- Take one far frame in rotation, when an expander has one (R67). `taken` are frames taken but not yet in a table. -/
def takeFar (taken : List Nat) (s : State) : Option Nat × State :=
  let live := s.mem.expanders.filter (fun e => e.up)
  let order := farOrder s.mem.farTurn (live.map (·.port))
  let pick := order.findSome? (fun p =>
    (live.find? (fun e => e.port == p)).bind (fun e =>
      (freeFar e (farUsed p s ++ taken.filterMap (fun f => if f / 2 ^ 21 = p then some (f % 2 ^ 21) else none))).map (fun i => (p, i))))
  match pick with
  | none => (none, s)
  | some (p, i) => (some (p * 2 ^ 21 + i), { s with mem := { s.mem with farTurn := p + 1 } })

/-- Allot every empty place of a list of far frames, in order. -/
def fillFar : List (Option Nat) → List Nat → State → List (Option Nat) × State
  | [], _, s => ([], s)
  | some f :: r, t, s =>
    let (l, s) := fillFar r t s
    (some f :: l, s)
  | none :: r, t, s =>
    match takeFar t s with
    | (some f, s) =>
      let s := markNeverRange (farFrameAddr f) frameBytes s
      let (l, s) := fillFar r (f :: t) s
      (some f :: l, s)
    | (none, s) =>
      let (l, s) := fillFar r t s
      (none :: l, s)

/-- Allot the far frames that a composition lacks: its window, then its reserve (R40). -/
def allotFar (slot : Nat) (s : State) : State :=
  match (frameHolders s).find? (fun c => c.slot == slot) with
  | none => s
  | some c =>
    let (far, s) := fillFar c.far [] s
    let s := modHolder slot (fun c => { c with far }) s
    let (resv, s) := fillFar c.resvFar [] s
    modHolder slot (fun c => { c with resvFar := resv }) s

/-- The frames of a table that retention keeps: those on an expander kept by an ASSERT (R542, R546). -/
def keptFar (old now : List (Option Nat)) (s : State) : List (Option Nat) :=
  let ok (f : Nat) : Bool := s.mem.expanders.any (fun e => e.port == f / 2 ^ 21 && e.kept && f % 2 ^ 21 < e.capacity / frameBytes)
  (List.range now.length).map (fun i =>
    match now[i]?, old[i]? with
    | some (some f), _ => some f
    | _, some (some f) => if ok f then some f else none
    | _, _ => none)

/-- Put the kept far frames of a composition back (R542). -/
def restoreFar (slot : Nat) (s : State) : State :=
  match (frameHolders s).find? (fun c => c.slot == slot) with
  | none => s
  | some c =>
    match s.img.kept.find? (fun k => k.cmpId == c.cmpId) with
    | none => s
    | some k => modHolder slot (fun c => { c with far := keptFar k.far c.far s, resvFar := keptFar k.resvFar c.resvFar s }) s

/-- The harvests of a composition that held a version block in a far frame that is not kept close (R542). -/
def closeFarBlocks (slot : Nat) (s : State) : State :=
  let lost := match (frameHolders s).find? (fun c => c.slot == slot), s.img.kept.find? (fun k => some k.slot == some slot) with
    | some c, some k => keptFar k.resvFar (c.resvFar.map (fun _ => none)) s != k.resvFar
    | _, _ => true
  if !lost then s else
  each (s.hv.regions.filter (fun r => r.slot == slot)) (fun r s =>
    let n := (r.harvests.takeWhile (fun h => !(h.blocks.any (fun b => b.2.far)))).length
    if n = r.harvests.length then s else
    let last := (((List.range r.harvests.length).filter (fun i =>
      (r.harvests[i]?).any (fun h => h.blocks.any (fun b => b.2.far)))).getLast?).getD 0
    closeUntil slot r.base false true (((r.harvests.take (last + 1)).filter isLive).length) s) s

/-- Far frames left unallotted, over all compositions. -/
def unallotted (s : State) : Nat :=
  ((frameHolders s).map (fun c => ((c.far ++ c.resvFar).filter (·.isNone)).length)).sum

/-- The PORT events of an allotment that left frames unallotted (R40). -/
def shortfallEvents (s : State) : State :=
  let n := unallotted s
  if n = 0 then s else
  each (hostLinks s) (fun p s =>
    let frames := ((s.mem.expanders.find? (fun e => e.port == p)).map (fun e => if e.up then e.capacity / frameBytes else 0)).getD 0
    if frames < 2097152 then event 0x0020 0 p (2097152 - frames + n * 2 ^ 32) s else s) s

/-- The far frames of the image are allotted once the expanders have enumerated, none of them waits for an ASSERT, and this
Slosin has joined (R40, R542, R546). -/
def allotIfReady (s : State) : State :=
  if s.mem.allotted || !s.mem.enumerated || !fbit FAB_NODE_JOINED s || s.mem.expanders.any (·.retainWait) then s else
  let slots := (frameHolders s).map (·.slot)
  { s with mem := { s.mem with allotted := true } }
    |> each slots closeFarBlocks |> each slots restoreFar |> each slots allotFar |> each slots updateUse |> shortfallEvents

/-- The expanders enumerate (R40): an entry without a capacity is missing or failed. One that held frames before a reset
keeps them out of service until an ASSERT or its deadline (R542, R546). -/
def enumerate (found : List (Nat × Option Nat)) (s : State) : State :=
  let links := hostLinks s
  let mine := found.filter (fun f => links.contains f.1)
  let old (p : Nat) : Nat := ((s.mem.expanders.find? (fun e => e.port == p)).map (·.incarnation)).getD 0
  let held (p : Nat) : Bool := s.img.kept.any (fun c => (c.far ++ c.resvFar).any (fun f => f.any (fun x => x / 2 ^ 21 == p)))
  let es : List Expander := links.filterMap (fun p =>
    match mine.find? (fun f => f.1 == p) with
    | some (_, some cap) => some { port := p, capacity := min cap (2 ^ 42), up := !held p, incarnation := old p + 1, retainWait := held p }
    | _ => none)
  { s with mem := { s.mem with expanders := es, farTurn := links.headD 0, enumerated := true } } |> allotIfReady

/-! ### Heat (R78, R79) -/

/-- The region numbers of a composition's backed windows. -/
def heatRegions (c : Comp) : List Nat :=
  List.range (c.nearBytes / frameBytes) ++ (List.range (c.farBytes / frameBytes)).map (· + farWindow / frameBytes)

/-- One region's counters at the end of an epoch. -/
def decay (h : Heat) : Heat :=
  { h with reads := h.reads / 2, writes := h.writes / 2, remote := h.remote / 2, sat := false, seen := false,
           age := if h.seen then 0 else min 255 (h.age + 1) }

/-- The end of an epoch of a composition. A region under NOHEAT keeps its counters (R76); FREEZE stops decay. -/
def heatEpoch (slot : Nat) (s : State) : State :=
  match compAt slot s with
  | none => s
  | some c =>
    if fbit (CMP_HEAT_CTL_FREEZE slot) s then s else
    each (heatRegions c) (fun r s =>
      let k := slot * 2 ^ 26 + r
      if kgetD s.mem.advice k 0 == 5 then s
      else { s with mem := { s.mem with heat := kset s.mem.heat k (decay (kgetD s.mem.heat k {})) {} } }) s

/-- CLEAR = 1: every counter, prescaler and AGE of the composition is zeroed; the bit is clear again when it is done. -/
def heatClear (slot : Nat) (s : State) : State :=
  { s with mem := { s.mem with heat := kkeep s.mem.heat (fun k => k / 2 ^ 26 != slot) } } |> fset (CMP_HEAT_CTL_CLEAR slot) 0

/-! ### Late and failed tiers (R86 to R88) -/

/-- The stall cause of a late access. -/
def lateCause : Tier → Nat
  | .far _ => 1
  | .peer _ => 3
  | .host _ => 4

/-- An outstanding access has waited `ns` nanoseconds beyond its threshold. -/
def tierLate (id ns : Nat) (s : State) : State :=
  match s.mem.tier.find? (fun a => a.id == id) with
  | none => s
  | some a =>
    { s with mem := { s.mem with tier := s.mem.tier.map (fun x => if x.id == id then { x with late := x.late + ns } else x) } }
      |> addStall a.desc (lateCause a.tier) ns

/-- An expander fails (R87): the access to it ends its descriptor, and later ones fail at once. The time from the first
failed attempt is counted under FAR_FAILED: a free value (assumption 5). -/
def farFailed (port : Nat) (s : State) : State :=
  let mine := s.mem.tier.filter (fun a => match a.tier with | .far p => p.val == port | _ => false)
  let s := { s with mem := { s.mem with expanders := s.mem.expanders.map (fun e =>
    if e.port == port then { e with up := false } else e) } }
  each mine (fun a s =>
    let (n, s) := takeFree 32 s
    s |> addStall a.desc 2 n.toNat |> accessOver a.id 0x13) s

/-- Frames of an expander as physical ranges. -/
def expanderRange (port : Nat) : Nat × Nat := (farFrameAddr (port * 2 ^ 21), 2 ^ 42)

/-- An expander returns after a failure (R88, R546): a new incarnation; its frames are out of service until an ASSERT or
its deadline. -/
def expanderReturn (port capacity : Nat) (s : State) : State :=
  let cap := min capacity (2 ^ 42)
  { s with mem := { s.mem with expanders := s.mem.expanders.map (fun e =>
    if e.port == port && !e.up then { e with capacity := cap, incarnation := e.incarnation + 1, retainWait := true } else e) } }

/-- The frames of a returned expander enter service, kept or never-written (R546). -/
def expanderServe (port : Nat) (keep : Bool) (s : State) : State :=
  match s.mem.expanders.find? (fun e => e.port == port && e.retainWait) with
  | none => s
  | some _ =>
    let s := if keep then s else
      let (b, l) := expanderRange port
      markNeverRange b l s
    { s with mem := { s.mem with expanders := s.mem.expanders.map (fun e =>
      if e.port == port then { e with up := true, retainWait := false, kept := keep } else e) } } |> allotIfReady

/-! ### The commands -/

/-- EXPANDER_ENUMERATION (R40). -/
def execExpanderEnumeration (found : List (Fin 24 × Option (BitVec 43))) (s : State) :=
  ok (if s.img.configured && !s.mem.enumerated then enumerate (found.map (fun f => (f.1.val, f.2.map (·.toNat)))) s else s)
/-- HEAT_EPOCH_END (R78). -/
def execHeatEpochEnd (slot : Fin 64) (s : State) := ok (heatEpoch slot s)
/-- NW_FILL_DONE (R83). -/
def execNwFillDone (page : Nat) (s : State) := ok (endFill page s)
/-- TIER_ACCESS_DONE (R86). -/
def execTierAccessDone (id : Nat) (s : State) := ok (accessOver id 0 s)
/-- TIER_LATE (R86). -/
def execTierLate (id ns : Nat) (s : State) := ok (tierLate id ns s)
/-- ACCESS_TIMEOUT (R86, R87). -/
def execAccessTimeout (id : Nat) (s : State) := ok (accessOver id 0x13 s)
/-- FAR_ACCESS_FAILED (R87). -/
def execFarAccessFailed (port : Fin 24) (s : State) := ok (farFailed port s)
/-- EXPANDER_RETURN (R88). -/
def execExpanderReturn (port : Fin 24) (capacity : BitVec 43) (s : State) := ok (expanderReturn port capacity.toNat s)
/-- EXPANDER_RETAIN_DEADLINE (R546). -/
def execExpanderRetainDeadline (port : Fin 24) (s : State) := ok (expanderServe port false s)

end Sys2Proof.Machine
end

