-- ==== Sys2Proof/Machine/Reduce.lean ====
section
/-! DEFINITION. The Reduce engine (chapter 11): sums on one Slosin, recipes over arrays, and collectives. -/

namespace Sys2Proof.Machine

/-! ### Terms (R258, R280) -/

/-- What has been summed of one element: the exact accumulator, the binary32 sum of FAST mode (none before its first
term), a mark, and the flags met. -/
structure PV where
  acc : Accum := {}
  fast : Option Nat := none
  bit : Bool := false
  flags : Nat := 0
  deriving DecidableEq, Repr

/-- A term count that passes the limit of an accumulator raises OVF (R261, R269). -/
def overLimit (n m : Nat) : Nat := if n + m > maxTerms then fOVF else 0

/-- Add a binary32 term. -/
def addTerm (fast : Bool) (v : Nat × Nat) (bit : Bool) (x : PV) : PV :=
  if fast then
    match x.fast with
    | none => { x with fast := some v.1, bit := x.bit || bit, flags := x.flags ||| v.2 }
    | some y =>
      let (z, f) := fadd32 y v.1
      { x with fast := some z, bit := x.bit || bit, flags := x.flags ||| v.2 ||| f }
  else { x with acc := accTerm v.1 bit x.acc, bit := x.bit || bit, flags := x.flags ||| v.2 ||| overLimit x.acc.count 1 }

/-- What a malformed form enters as (R280). -/
def badForm (bit : Bool) : Accum := { count := 1, nan := true, allneg0 := false, bittern := bit }

/-- Add an accumulator form; in FAST mode it is first rounded to binary32. -/
def addForm (fast : Bool) (code n : Nat) (bit : Bool) (x : PV) : PV :=
  let full := code = 0x20
  let a := ((if full then readFull n else readWin n).getD (badForm (bitAt n (if full then 325 else 86))))
  let a := { a with bittern := a.bittern || bit }
  if fast then addTerm true (accDeliver 0x01 0 0 a) a.bittern x
  else { x with acc := accMerge x.acc a, bit := x.bit || a.bittern,
                flags := x.flags ||| overLimit x.acc.count a.count
                  ||| (if (if full then readFull n else readWin n).isNone then fINV else 0) }

/-- Where the scales of an MX array of `n` elements lie after its base (R279). -/
def scaleOff (fmt n : Nat) : Nat := (arrayBytes fmt n + 255) / 256 * 256

/-- Add elements `first` on of an array of `total` elements to a list of sums. -/
def addArray (fast : Bool) (fmt va total first : Nat) (xs : List PV) : Eng (List PV) := do
  let n := xs.length
  let es ← readDense va (fmtBits fmt) first n
  if isMx fmt then
    let s0 := first / 32
    let sc ← readMarked (va + scaleOff fmt total + s0) ((first + n - 1) / 32 - s0 + 1)
    return (xs.zip es).mapIdx (fun i p =>
      let k := sc.getD ((first + i) / 32 - s0) (0, false)
      addTerm fast (mxDecode fmt k.1.toNat p.2.1) (p.2.2 || k.2) p.1)
  else if fmt = 0x20 || fmt = 0x21 then return (xs.zip es).map (fun p => addForm fast fmt p.2.1 p.2.2 p.1)
  else return (xs.zip es).map (fun p => addTerm fast (readElem fmt p.2.1) p.2.2 p.1)

/-- Add several arrays in order (R284). -/
def addArrays (fast : Bool) (fmt total first : Nat) : List Nat → List PV → Eng (List PV)
  | [], xs => pure xs
  | va :: r, xs => do addArrays fast fmt total first r (← addArray fast fmt va total first xs)

/-- The sources of a descriptor. -/
def redSources (raw : BitVec 1024) : List Nat := (List.range (rdCount raw)).map (fun k => rdSrc raw + k * rdStride raw)

/-- This Slosin's partial of elements `first` to `first + n - 1`. -/
def redPartial (raw : BitVec 1024) (first n : Nat) : Eng (List PV) :=
  addArrays (rdFast raw) (rdIn raw) (rdN raw) first (redSources raw) (List.replicate n {})

/-! ### Delivery (R281, R282, R291) -/

/-- Blocks of 32 of a list. -/
def chunk32 {α : Type} : Nat → List α → List (List α)
  | 0, _ => []
  | n + 1, l => if l.isEmpty then [] else l.take 32 :: chunk32 n (l.drop 32)

/-- The exact value a sum is rounded from. -/
def pvValue (fast : Bool) (x : PV) : FV := if fast then fdec b32 (x.fast.getD 0) else (accValue x.acc).1

/-- The bits of delivered elements from `first` on, their scales (MX), and their flags. -/
def redEncode (raw : BitVec 1024) (first : Nat) (xs : List PV) : List (Nat × Bool) × List (Nat × Bool) × Nat :=
  let fmt := rdOut raw
  let rnd := rdRnd raw
  let d (i : Nat) : Nat := draw (rdSeed raw) (rdStep raw) i 0x40
  let fl := xs.foldl (fun m x => m ||| x.flags) 0
  if fmt = 0x20 then (xs.map (fun x => (accFull x.acc, x.bit)), [], fl)
  else if isMx fmt then
    let bs := (chunk32 (xs.length + 1) xs).mapIdx (fun b ys =>
      let r := mxEncode fmt rnd (ys.map (pvValue (rdFast raw))) (ys.mapIdx (fun j _ => d (first + 32 * b + j)))
      let iv := ys.foldl (fun m y => m ||| (if rdFast raw then 0 else (accValue y.acc).2)) 0
      ((r.2.1.zip (ys.map (·.bit))), (r.1, ys.any (·.bit)), r.2.2 ||| iv))
    (bs.flatMap (·.1), bs.map (·.2.1), bs.foldl (fun m b => m ||| b.2.2) fl)
  else
    let vs := xs.mapIdx (fun i x =>
      let r := if rdFast raw then writeElem fmt rnd (d (first + i)) (x.fast.getD 0) else accDeliver fmt rnd (d (first + i)) x.acc
      (r, x.bit))
    (vs.map (fun v => (v.1.1, v.2)), [], vs.foldl (fun m v => m ||| v.1.2) fl)

/-- Write delivered elements into an array laid out as RESULT. -/
def redStore (raw : BitVec 1024) (va first : Nat) (es scales : List (Nat × Bool)) : Eng Unit := do
  writeDense va (fmtBits (rdOut raw)) first es
  if !scales.isEmpty then
    writeMarked (va + scaleOff (rdOut raw) (rdN raw) + first / 32) (scales.map (fun x => (BitVec.ofNat 8 x.1, x.2)))

/-- Deliver elements from `first` on: the old RESULT as a further term, one rounding, the write, this member's own COPY.
Gives the delivered elements and their flags. -/
def redDeliver (raw : BitVec 1024) (first : Nat) (xs : List PV) : Eng (List (Nat × Bool) × Nat) := do
  let xs ← if rdInclude raw then addArray (rdFast raw) (rdOut raw) (rdResult raw) (rdN raw) first xs else pure xs
  let (es, sc, fl) := redEncode raw first xs
  redStore raw (rdResult raw) first es sc
  if dOpc raw = 3 then redStore raw (rdAux raw) first es sc
  engConsume (xs.any (·.bit))
  engBytes ((es.length * fmtBits (rdOut raw) + 7) / 8)
  return (es, fl)

/-! ### Recipes over arrays (R242 to R246) -/

/-- What a recipe has gathered over elements. -/
structure RecS where
  flags : Nat := 0
  sums : List Accum := List.replicate 4 {}
  bit : Bool := false

/-- One element's bytes of a loaded or stored stream: elements of whole bytes. -/
def loadStream (b : BitVec 3072) (k base first n : Nat) : Eng (List (Nat × Bool)) := do
  let e := streamE b k
  if e.mode = 1 || e.mode = 3 then
    let bs ← readMarked (base + streamOff b k first) (n * streamBytes e)
    return sliceElems (8 * streamBytes e) n 0 bs
  else return List.replicate n (0, false)

/-- Look at what a recipe reads and writes for `n` elements of one unit. -/
def reachUnit (b : BitVec 3072) (bases : List Nat) (s3 : Bool) (first n : Nat) : List Nat → Eng Unit
  | [] => pure ()
  | k :: ks => do
    if (streamE b k).mode ≠ 0 && !(k == 3 && s3) then
      reachVa (bases.getD k 0 + streamOff b k first) (n * streamBytes (streamE b k))
    reachUnit b bases s3 first n ks

/-- Look at what a recipe reads and writes for elements `first` to `first + n - 1`. -/
def reachRange (b : BitVec 3072) (bases : List Nat) (s3 : Bool) : Nat → Nat → Nat → Eng Unit
  | 0, _, _ => pure ()
  | f + 1, first, n => do
    if n = 0 then return ()
    let u := 256 / streamW b
    let k := min (u - first % u) n
    reachUnit b bases s3 first k [0, 1, 2, 3]
    reachRange b bases s3 f (first + k) (n - k)

/-- Run a recipe over `n` elements of one unit of 256 bytes, from element `first` on. `s3`: the elements of S3 when they are
not in memory, or already read. -/
def recipeUnit (b : BitVec 3072) (bases : List Nat) (x : ElemIn) (idx0 : Nat) (s3 : Option (List (Nat × Bool))) (first n : Nat)
    (r : RecS) : Eng RecS := do
  reachUnit b bases s3.isSome first n [0, 1, 2, 3]
  let l0 ← loadStream b 0 (bases.getD 0 0) first n
  let l1 ← loadStream b 1 (bases.getD 1 0) first n
  let l2 ← loadStream b 2 (bases.getD 2 0) first n
  let l3 ← match s3 with
    | some l => pure l
    | none => loadStream b 3 (bases.getD 3 0) first n
  let at_ (l : List (Nat × Bool)) (i : Nat) : Nat × Bool := l.getD i (0, false)
  let res := (List.range n).map (fun i =>
    let a := [at_ l0 i, at_ l1 i, at_ l2 i, at_ l3 i]
    (runElem b { x with index := idx0 + first + i } (a.map (·.1)), a.any (·.2)))
  let store (k : Nat) : Eng Unit := do
    let e := streamE b k
    if (e.mode = 2 || e.mode = 3) && !(k == 3 && s3.isSome) then
      let es := res.map (fun y => (((y.1.1)[k]?).join.getD 0, y.2))
      writeMarked (bases.getD k 0 + streamOff b k first) (packElems (8 * streamBytes e) es)
  store 0
  store 1
  store 2
  store 3
  let bit := res.any (·.2)
  engConsume bit
  let sums := res.foldl (fun ss y => y.1.2.1.foldl (fun ss t => ss.set t.1 (accTerm t.2 y.2 (ss.getD t.1 {}))) ss) r.sums
  return { flags := res.foldl (fun m y => m ||| y.1.2.2) r.flags ||| (if sums.any (·.ovf) then fOVF else 0),
           bit := r.bit || bit, sums }

/-- Run a recipe over elements `first` to `first + n - 1`, unit by unit. -/
def recipeRange (b : BitVec 3072) (bases : List Nat) (x : ElemIn) (idx0 : Nat) (s3 : Option (List (Nat × Bool))) (s3first : Nat) :
    Nat → Nat → Nat → RecS → Eng RecS
  | 0, _, _, r => pure r
  | f + 1, first, n, r => do
    if n = 0 then return r
    let u := 256 / streamW b
    let k := min (u - first % u) n
    let part := s3.map (fun l => (l.drop (first - s3first)).take k)
    let r ← recipeUnit b bases x idx0 part first k r
    recipeRange b bases x idx0 s3 s3first f (first + k) (n - k) r

/-- What the elements of a Reduce recipe read beside their streams. -/
def redElemIn (raw : BitVec 1024) (b : BitVec 3072) : ElemIn :=
  { consts := blkConsts b, scalars := rdScalars raw, seed := rdSeed raw, step := rdStep raw, index := 0 }

/-- The recipe in force for a descriptor. -/
def recipeOf (id : Nat) (raw : BitVec 1024) (s : State) : BitVec 3072 :=
  redRecipe raw (((descOf id s).map (·.recipe)).getD [])

/-- The flags of DETAIL, gathered. -/
def engDetail (n : Nat) : Eng Unit := modify (fun e => { e with detail := n })

/-! ### ACCUMULATE and RUN -/

/-- ACCUMULATE from element `first` on, 256 at a time: it ends after the elements that consumed bittern. -/
def accumulateGo (raw : BitVec 1024) : Nat → Nat → Nat → Eng Nat
  | 0, _, fl => pure fl
  | f + 1, first, fl => do
    if first ≥ rdN raw then return fl
    let n := min 256 (rdN raw - first)
    let xs ← redPartial raw first n
    engBytes (rdCount raw * ((n * fmtBits (rdIn raw) + 7) / 8))
    let (_, g) ← redDeliver raw first xs
    if (← get).consumed then return fl ||| g
    accumulateGo raw f (first + 256) (fl ||| g)

/-- ACCUMULATE (R279, R283, R284). -/
def accumulate (raw : BitVec 1024) : Eng Unit := do
  engDetail (← accumulateGo raw (rdN raw / 256 + 1) 0 0)

/-- Write the sums of RUN that an operation names (R295). -/
def writeSums (raw : BitVec 1024) (r : RecS) : List Nat → Eng Nat
  | [] => pure 0
  | k :: ks => do
    let (v, fl) := accDeliver 0x01 0 0 (r.sums.getD k {})
    writeMarked (rdResult raw + 4 * k) (packElems 32 [(v, r.bit)])
    return fl ||| (← writeSums raw r ks)

/-- RUN (R295). -/
def runRecipe (raw : BitVec 1024) : Eng Unit := do
  let e ← get
  let b := recipeOf e.id raw e.st
  let n := rdN raw
  let bases := (List.range 4).map (redStreamVa raw)
  let r ← recipeRange b bases (redElemIn raw b) 0 none 0 (n + 1) 0 n {}
  let fl ← writeSums raw r (recipeSums b)
  engBytes (n * (((List.range 4).filter (fun k => (streamE b k).mode ≠ 0)).map (fun k => streamBytes (streamE b k))).sum)
  engDetail (r.flags ||| fl)

/-! ### Collectives (R285 to R292) -/

/-- Key of a collective. -/
def collKey (slot id : Nat) : Nat := slot * 65536 + id

/-- Change the table of collectives. -/
def setColl (slot id : Nat) (x : Option Coll) (s : State) : State :=
  let t := match x with
    | some x => kput s.engs.colls (collKey slot id) x
    | none => kdel s.engs.colls (collKey slot id)
  { s with engs := { s.engs with colls := t } } |> fset ENG_RED_STATUS_COLL_USED t.length

/-- An entry of the table. -/
def collAt (slot id : Nat) (s : State) : Option Coll := kget? s.engs.colls (collKey slot id)

/-- The signature of a descriptor (R286). -/
def redSig (raw : BitVec 1024) : Nat :=
  crc32c (natLe 52 (db raw 12 52) ++ natLe 32 (db raw 96 32)) % 4096

/-- Send a control packet of a collective (R289). -/
def sendCtrl (c : Comp) (id node kind window epoch sig cause : Nat) (s : State) : State :=
  let me := (memberIndex c (myNode s)).getD 0
  let o := kind + 2 ^ 7 + cause * 2 ^ 8 + id * 2 ^ 24 + me * 2 ^ 40 + epoch * 2 ^ 50 + sig * 2 ^ 52
  route (mkPkt 0x62 node c.cmpId 0 window o [] false 2 s) s

/-- The other participants of a descriptor's group: member index and node. -/
def redOthers (raw : BitVec 1024) (c : Comp) (s : State) : List (Nat × Nat) :=
  (rdGroup raw).filterMap (fun m => match c.members[m]? with
    | some n => if n = myNode s then none else some (m, n)
    | none => none)

/-- Send a control packet to every other participant. -/
def ctrlAll (raw : BitVec 1024) (c : Comp) (kind window epoch sig cause : Nat) (s : State) : State :=
  each (redOthers raw c s) (fun m => sendCtrl c (rdColl raw) m.2 kind window epoch sig cause) s

/-- A collective ends here without success (R297): its status and cause, the member concerned, and the cause sent to the
others (none when there is none to send). -/
def collFail (x : Coll) (status cause who : Nat) (send : Option Nat) (s : State) : State :=
  let s := setColl x.slot x.collId none s
  let s := if status = 0x13 && cause = 1 then s |> fset ENG_RED_STATUS_TIMEOUT_STK 1 |> finc (ENG_RED_EVENT_CNT 4)
    else if status = 0x13 && cause = 2 then s |> fset ENG_RED_STATUS_MISMATCH_STK 1 |> finc (ENG_RED_EVENT_CNT 5) else s
  match x.desc.bind (fun d => descOf d s), compAt x.slot s with
  | some d, some c =>
    -- how much of a command that failed midway had committed is open (assumption 22)
    let midway : Bool := status > 0x10 && d.bytes > 0
    let (n, s) := if midway then takeFree 64 s else (0, s)
    let s := modDesc d.id (fun d => if d.phase == .finished then d else
      { d with phase := .finished, status, bytes := if midway then n.toNat % (d.bytes + 1) else d.bytes, detail := if status = 0x13 then cause + who * 2 ^ 8 else 0 }) s
    match send with
    | some k => ctrlAll d.raw c 4 0 0 0 k s
    | none => s
  | _, _ => s

/-- The index of this member. -/
def myIndex (slot : Nat) (s : State) : Nat := ((compAt slot s).bind (fun c => memberIndex c (myNode s))).getD 0

/-- Work of a collective in its descriptor: a failure ends the collective (R297); so does bittern it consumed. -/
def collDo {α : Type} (slot id : Nat) (m : Eng α) (f : α → State → State) (s : State) : State :=
  match collAt slot id s with
  | none => s
  | some x =>
    match x.desc with
    | none => s
    | some d =>
      match engOn d m s with
      | (some (.ok a), s) =>
        let s := f a s
        match collAt slot id s, descOf d s with
        | some x, some d => if d.consumed then collFail x 0x10 0 (myIndex slot s) (some 3) s else s
        | _, _ => s
      | (some (.error st), s) => collFail x st 0 (myIndex slot s) (some 3) s
      | (none, s) => s

/-- Elements of a window that are homed on a node. -/
def homedOn (raw : BitVec 1024) (c : Comp) (runs : List Run) (node w : Nat) : List Nat :=
  let lo := 256 * w
  ((List.range (min 256 (rdN raw - lo))).map (· + lo)).filter (fun i =>
    (homeAt c runs (rdResult raw + i * fmtBits (rdOut raw) / 8)).any (fun h => h.1 == node))

/-- Stretches of consecutive indices: start and length. -/
def stretches : List Nat → List (Nat × Nat)
  | [] => []
  | i :: r =>
    match stretches r with
    | (a, n) :: t => if a = i + 1 then (i, n + 1) :: t else (i, 1) :: (a, n) :: t
    | [] => [(i, 1)]

/-- Partials of several stretches, in order. -/
def partials (raw : BitVec 1024) : List (Nat × Nat) → Eng (List PV)
  | [] => pure []
  | (a, n) :: r => do
    let xs ← redPartial raw a n
    return xs ++ (← partials raw r)

/-- Deliver a window part stretch by stretch; under MERGE_APPLY its recipe runs on it (R291, R294). -/
def deliverPart (raw : BitVec 1024) : List (Nat × Nat) → List PV → Nat → Eng Nat
  | [], _, fl => pure fl
  | (a, n) :: r, xs, fl => do
    let (es, g) ← redDeliver raw a (xs.take n)
    let h ← if dOpc raw = 4 then do
        let e ← get
        let b := recipeOf e.id raw e.st
        let q ← recipeRange b ((List.range 4).map (redStreamVa raw)) (redElemIn raw b) 0 (some es) a (n + 1) a n {}
        pure q.flags
      else pure 0
    deliverPart raw r (xs.drop n) (fl ||| g ||| h)

/-- Look at what the delivery of a window part reads and writes under MERGE_APPLY: the part is one update block, whose
gradient and parameters commit together (R294). -/
def reachPart (raw : BitVec 1024) : List (Nat × Nat) → Eng Unit
  | [] => pure ()
  | (a, n) :: r => do
    let e ← get
    let b := recipeOf e.id raw e.st
    let w := fmtBits (rdOut raw)
    reachVa (rdResult raw + a * w / 8) ((n * w + 7) / 8)
    if isMx (rdOut raw) then reachVa (rdResult raw + scaleOff (rdOut raw) (rdN raw) + a / 32) ((n + 31) / 32)
    reachRange b ((List.range 4).map (redStreamVa raw)) true (n + 1) a n
    reachPart raw r

/-- Change a part. -/
def modPart (slot id w : Nat) (f : RedPart → RedPart) (s : State) : State :=
  match collAt slot id s with
  | some x => setColl slot id (some { x with parts := x.parts.map (fun p => if p.window = w then f p else p) }) s
  | none => s

/-- The descriptor of a collective. -/
def collDesc (slot id : Nat) (s : State) : Option Desc := (collAt slot id s).bind (fun x => x.desc.bind (fun d => descOf d s))

/-- The conditions of R292 hold: the descriptor completes. -/
def collEnd (slot id : Nat) (s : State) : State :=
  match collAt slot id s, collDesc slot id s with
  | some x, some d =>
    let n := rdN d.raw
    if x.formed && x.parts.isEmpty && x.arms.isEmpty && x.doneN + x.sentN ≥ n && (dOpc d.raw ≠ 3 || x.doneN + x.copiedN ≥ n) then
      s |> setColl slot id none
        |> modDesc d.id (fun d => if d.phase == .finished then d else
            { d with phase := .finished, status := if x.replays > 0 then 0x01 else 0, detail := x.flags, replays := x.replays })
    else s
  | _, _ => s

/-- Deliver a complete part (R291). -/
def finishPart (slot id w : Nat) (s : State) : State :=
  match collAt slot id s, collDesc slot id s, compAt slot s with
  | some x, some d, some c =>
    match x.parts.find? (fun p => p.window == w) with
    | none => s
    | some p =>
      let others := redOthers d.raw c s
      let whole := others.all (fun m => p.idx.all (fun i => kmem p.got (m.1 * 256 + i % 256)))
      if !whole then s else
      let xs := if rdFast d.raw then p.fast.map (fun v => { fast := some v.1, bit := v.2 : PV })
        else p.accs.map (fun a => { acc := a, bit := a.bittern : PV })
      collDo slot id (do
        if dOpc d.raw = 4 then reachPart d.raw (stretches p.idx)
        engBytes (rdCount d.raw * ((p.idx.length * fmtBits (rdIn d.raw) + 7) / 8))
        deliverPart d.raw (stretches p.idx) xs 0) (fun fl s =>
        match collAt slot id s with
        | none => s
        | some x =>
          let s := setColl slot id (some { x with parts := x.parts.filter (fun q => q.window != w),
                                                  doneN := x.doneN + p.idx.length, flags := x.flags ||| fl }) s
          if dOpc d.raw = 3 then ctrlAll d.raw c 3 w 0 0 0 s else s) s
  | _, _, _ => s

/-- Arm window parts in ascending order while there is room: 1,024 for a collective, 2 for a home pan (R287). A part of a
lone participant is complete at once. -/
def armParts (slot id : Nat) : Nat → State → State
  | 0, s => s
  | n + 1, s =>
    match collAt slot id s, collDesc slot id s, compAt slot s with
    | some x, some d, some c =>
      let w := x.next
      if !x.formed || 256 * w ≥ rdN d.raw || x.parts.length ≥ 1024 then s else
      let idx := homedOn d.raw c d.runs (myNode s) w
      let go := setColl slot id (some { x with next := w + 1 }) s
      match idx with
      | [] => armParts slot id n go
      | i :: _ =>
        let pan := match runAt d.runs (rdResult d.raw + i * fmtBits (rdOut d.raw) / 8) with
          | some (.pool a, _) => ((physOf c a s).map vaultOf).getD 4096
          | _ => 4096
        if (x.parts.filter (fun p => p.pan == pan)).length ≥ 2 then s else
        let s := collDo slot id (partials d.raw (stretches idx)) (fun xs s =>
          match collAt slot id s with
          | none => s
          | some x =>
            let p : RedPart := { window := w, idx, pan, accs := xs.map (·.acc), fast := xs.map (fun v => (v.fast.getD 0, v.bit)) }
            setColl slot id (some { x with parts := x.parts ++ [p],
                                           flags := xs.foldl (fun m v => m ||| v.flags) x.flags }) s) go
        let s := s |> ctrlAll d.raw c 1 w 0 0 0 |> finishPart slot id w
        armParts slot id n s
    | _, _, _ => s

/-- Windows of a descriptor: the fuel of arming. -/
def armFuel (slot id : Nat) (s : State) : Nat := ((collDesc slot id s).map (fun d => rdN d.raw / 256 + 1)).getD 0

/-- The slots of one packet's elements: the chunk of a list that fits it (R289). -/
def packPartials (fast : Bool) : Nat → List PV → List (List PV)
  | 0, _ => []
  | n + 1, xs =>
    if xs.isEmpty then [] else
    let size (x : PV) : Nat := if (accWin x.acc).isSome then 1 else 3
    let k := if fast then min 64 xs.length
      else (xs.take 16).foldl (fun (a : Nat × Nat × Bool) x =>
        if a.2.2 || a.2.1 + size x > 16 then (a.1, a.2.1, true) else (a.1 + 1, a.2.1 + size x, false)) (0, 0, false) |>.1
    xs.take k :: packPartials fast n (xs.drop k)

/-- Send the partials of consecutive elements to their home (R288, R289). -/
def sendPartials (raw : BitVec 1024) (c : Comp) (node epoch first : Nat) (xs : List PV) (s : State) : State :=
  let fast := rdFast raw
  let me := (memberIndex c (myNode s)).getD 0
  ((packPartials fast (xs.length + 1) xs).foldl (fun (a : Nat × State) ys =>
    let full := (List.range ys.length).foldl (fun m j =>
      if !fast && (ys[j]?).any (fun y => (accWin y.acc).isNone) then m + 2 ^ j else m) 0
    let body := if fast then
        let n := ys.foldr (fun y b => (y.fast.getD 0) + b * 2 ^ 32) 0
        (List.range ((ys.length + 3) / 4)).map (fun i => BitVec.ofNat 128 (n / 2 ^ (128 * i)))
      else ys.flatMap (fun y => match accWin y.acc with
        | some w => [BitVec.ofNat 128 w]
        | none => (List.range 3).map (fun i => BitVec.ofNat 128 (accFull y.acc / 2 ^ (128 * i))))
    let o := (ys.length - 1) + (if fast then 2 ^ 6 else 0) + full * 2 ^ 8 + rdColl raw * 2 ^ 24 + me * 2 ^ 40 + epoch * 2 ^ 50
    (a.1 + ys.length, route (mkPkt 0x62 node c.cmpId 0 a.1 o body (ys.any (·.bit)) (2 + body.length) a.2) a.2)) (first, s)).2

/-- Send several stretches. -/
def sendStretches (raw : BitVec 1024) (c : Comp) (node epoch : Nat) : List (Nat × Nat) → List PV → State → State
  | [], _, s => s
  | (a, n) :: r, xs, s => sendStretches raw c node epoch r (xs.drop n) (sendPartials raw c node epoch a (xs.take n) s)

/-- Answer an ARM or REARM of a home: compute and send the partials of its window part (R288, R299). -/
def answerArm (slot id home w epoch : Nat) (s : State) : State :=
  match collDesc slot id s, compAt slot s with
  | some d, some c =>
    match c.members[home]? with
    | none => s
    | some node =>
      let idx := homedOn d.raw c d.runs node w
      let st := stretches idx
      collDo slot id (do
        let xs ← partials d.raw st
        engBytes (rdCount d.raw * ((idx.length * fmtBits (rdIn d.raw) + 7) / 8))
        engConsume (xs.any (·.bit))
        pure xs) (fun xs s =>
        let s := sendStretches d.raw c node epoch st xs s
        match collAt slot id s with
        | none => s
        | some x =>
          let key := home * 2 ^ 32 + w
          setColl slot id (some { x with sent := kin x.sent key true,
                                         sentN := if kmem x.sent key then x.sentN else x.sentN + idx.length }) s) s
  | _, _ => s

/-- Every JOIN has come and its SIG agrees: the collective is formed (R286, R287). -/
def tryForm (slot id : Nat) (s : State) : State :=
  match collAt slot id s, collDesc slot id s, compAt slot s with
  | some x, some d, some c =>
    if x.formed then s else
    match x.aborted with
    | some (cause, who) => collFail x 0x13 cause who none s
    | none =>
      let others := redOthers d.raw c s
      match x.joins.find? (fun j => j.2 != x.sig) with
      | some j => collFail x 0x13 2 j.1 (some 2) s
      | none =>
        if !others.all (fun m => x.joins.any (fun j => j.1 == m.1)) then s else
        let s := setColl slot id (some { x with formed := true, arms := [] }) s
        let s := each x.arms (fun a => answerArm slot id a.1 a.2.1 a.2.2) s
        s |> armParts slot id (armFuel slot id s) |> collEnd slot id
  | _, _, _ => s

/-- A collective command's descriptor starts (R286): its table entry, and JOIN to the others. -/
def collStart (raw : BitVec 1024) : Eng Unit := do
  let e ← get
  let slot := e.c.slot
  let id := rdColl raw
  let have_ := collAt slot id e.st
  if have_.isNone && e.st.engs.colls.length ≥ 4096 then
    engDetail (5 + myIndex slot e.st * 2 ^ 8)
    throw 0x13
  let x : Coll := have_.getD { slot, collId := id }
  let sig := redSig raw
  engMod (fun s => s |> setColl slot id (some { x with desc := some e.id, sig }) |> ctrlAll raw e.c 0 0 0 sig 0)
  engWait

/-- Start a collective command. -/
def collCmd (opc d : Nat) (inp : EngIn) (s : State) : State :=
  let ready := (descOf d s).any (fun x => x.phase == .running && !x.worked && dEng x.raw == 2 && dOpc x.raw == opc)
  let s := runEng 2 opc d inp collStart s
  match descOf d s with
  | some x => if ready && x.phase == .waiting then tryForm x.slot (rdColl x.raw) s else s
  | none => s

/-! ### Packets of a collective (R289, R290) -/

/-- The fields of OPARG. -/
def paColl (h : Hdr) : Nat := bitsOf h.oparg.toNat 24 16
/-- See `paColl`. -/
def paSrc (h : Hdr) : Nat := bitsOf h.oparg.toNat 40 10
/-- See `paColl`. -/
def paEpoch (h : Hdr) : Nat := bitsOf h.oparg.toNat 50 2

/-- A control packet of a kind, for a composition present here. -/
def onCtrl (kind : Nat) (k : Pkt) (f : Comp → State → State) (s : State) : State :=
  let o := k.hdr.oparg.toNat
  if !bitAt o 7 || bitsOf o 0 6 ≠ kind then s else
  onArrival 0x62 k (fun s => match compById k.hdr.cmpId.toNat s with
    | some c => if c.state = .failed then s else f c s
    | none => s) s

/-- A packet that no collective here takes. -/
def paDiscard (s : State) : State := finc (ENG_RED_EVENT_CNT 7) s

/-- JOIN (R286). -/
def onJoin (k : Pkt) (c : Comp) (s : State) : State :=
  let id := paColl k.hdr
  let have_ := collAt c.slot id s
  if have_.isNone && s.engs.colls.length ≥ 4096 then
    s |> fset ENG_RED_STATUS_TABLE_FULL_STK 1 |> finc (ENG_RED_EVENT_CNT 6) |> sendCtrl c id k.hdr.src.toNat 4 0 0 0 5
  else
    let x : Coll := have_.getD { slot := c.slot, collId := id }
    s |> setColl c.slot id (some { x with joins := x.joins ++ [(paSrc k.hdr, bitsOf k.hdr.oparg.toNat 52 12)] }) |> tryForm c.slot id

/-- ARM (R288) and REARM (R299). -/
def onArm (k : Pkt) (c : Comp) (s : State) : State :=
  let id := paColl k.hdr
  match collAt c.slot id s with
  | none => paDiscard s
  | some x =>
    let a := (paSrc k.hdr, k.hdr.pa.toNat, paEpoch k.hdr)
    if x.formed then s |> answerArm c.slot id a.1 a.2.1 a.2.2 |> collEnd c.slot id
    else setColl c.slot id (some { x with arms := x.arms ++ [a] }) s

/-- DONE: read the committed part and write it into COPY (R291). -/
def onDone (k : Pkt) (c : Comp) (s : State) : State :=
  let id := paColl k.hdr
  match collAt c.slot id s, collDesc c.slot id s with
  | some _, some d =>
    let w := k.hdr.pa.toNat
    let node := (c.members[paSrc k.hdr]?).getD 4096
    let idx := homedOn d.raw c d.runs node w
    let fmt := rdOut d.raw
    let copy (st : Nat × Nat) : Eng Unit := do
      let es ← readDense (rdResult d.raw) (fmtBits fmt) st.1 st.2
      let sc ← if isMx fmt then
          readMarked (rdResult d.raw + scaleOff fmt (rdN d.raw) + st.1 / 32) ((st.1 + st.2 - 1) / 32 - st.1 / 32 + 1)
        else pure []
      redStore d.raw (rdAux d.raw) st.1 es (sc.map (fun x => (x.1.toNat, x.2)))
    let rec copies : List (Nat × Nat) → Eng Unit
      | [] => pure ()
      | x :: r => do
        copy x
        copies r
    collDo c.slot id (copies (stretches idx)) (fun _ s =>
      match collAt c.slot id s with
      | none => s
      | some x =>
        let key := paSrc k.hdr * 2 ^ 32 + w
        setColl c.slot id (some { x with copied := kin x.copied key true,
                                         copiedN := if kmem x.copied key then x.copiedN else x.copiedN + idx.length }) s) s
      |> collEnd c.slot id
  | some _, none => s
  | none, _ => paDiscard s

/-- ABORT (R297): a participant whose sluice is stopped completes with 0x10. -/
def onAbort (k : Pkt) (c : Comp) (s : State) : State :=
  let id := paColl k.hdr
  let cause := bitsOf k.hdr.oparg.toNat 8 8
  match collAt c.slot id s with
  | none => paDiscard s
  | some x =>
    match collDesc c.slot id s with
    | none => setColl c.slot id (some { x with aborted := some (cause, paSrc k.hdr) }) s
    | some d =>
      let stopped := fget (SLC_STATUS_STATE d.sluice) s = 2
      collFail x (if stopped then 0x10 else 0x13) cause (paSrc k.hdr) none s

/-- The elements a data packet carries: offsets in its payload of 16-byte slots. -/
def paElems (h : Hdr) (body : List (BitVec 128)) : List (Option Accum × Nat × Bool) :=
  let o := h.oparg.toNat
  let n := bitsOf o 0 6 + 1
  if bitAt o 6 then
    let v := slotsNat body
    (List.range n).map (fun j => (none, bitsOf v (32 * j) 32, false))
  else
    ((List.range n).foldl (fun (a : List (Option Accum × Nat × Bool) × List (BitVec 128)) j =>
      if bitAt o (8 + j) then
        let v := slotsNat (a.2.take 3)
        (a.1 ++ [(some ((readFull v).getD (badForm (bitAt v 325))), if (readFull v).isNone then fINV else 0, true)], a.2.drop 3)
      else
        let v := slotsNat (a.2.take 1)
        (a.1 ++ [(some ((readWin v).getD (badForm (bitAt v 86))), if (readWin v).isNone then fINV else 0, false)], a.2.drop 1))
      ([], body)).1

/-- Merge one element into a part, with the flags that raises (R261, R280). -/
def mergeElem (src i : Nat) (mark : Bool) (e : Option Accum × Nat × Bool) (p : RedPart) : RedPart × Nat :=
  match p.idx.findIdx? (· == i) with
  | none => (p, 0)
  | some j =>
    let key := src * 256 + i % 256
    if kmem p.got key then (p, 0) else
    let p := { p with got := kin p.got key true }
    match e.1 with
    | some a =>
      let x := p.accs.getD j {}
      ({ p with accs := p.accs.set j (accMerge x a) }, e.2.1 ||| overLimit x.count a.count)
    | none =>
      let v := p.fast.getD j (0, false)
      let (y, f) := fadd32 v.1 e.2.1
      ({ p with fast := p.fast.set j (y, v.2 || mark) }, f)

/-- Partials arrive at their home (R289 to R291). -/
def onPartial (k : Pkt) (c : Comp) (s : State) : State :=
  let h := k.hdr
  let id := paColl h
  let first := h.pa.toNat
  let w := first / 256
  let s := finc (ENG_RED_EVENT_CNT 1) s
  match collAt c.slot id s with
  | none => paDiscard s
  | some x =>
    match x.parts.find? (fun p => p.window == w) with
    | none => paDiscard s
    | some p =>
      if p.epoch ≠ paEpoch h then paDiscard s else
      let es := paElems h k.body
      let s := fadd (ENG_RED_EVENT_CNT 2) (es.filter (fun e => e.2.2)).length s
      let r := (es.foldl (fun (a : Nat × RedPart × Nat) e =>
        let (q, f) := mergeElem (paSrc h) a.1 h.bittern e a.2.1
        (a.1 + 1, q, a.2.2 ||| f)) (first, p, 0)).2
      let s := setColl c.slot id (some { x with flags := x.flags ||| r.2 }) s
      s |> modPart c.slot id w (fun _ => r.1) |> finishPart c.slot id w
        |> (fun s => armParts c.slot id (armFuel c.slot id s) s) |> collEnd c.slot id

/-- PARTIAL_ACC: a data packet. -/
def partialAcc (k : Pkt) (s : State) : State :=
  if bitAt k.hdr.oparg.toNat 7 then s else
  onArrival 0x62 k (fun s => match compById k.hdr.cmpId.toNat s with
    | some c => if c.state = .failed then s else onPartial k c s
    | none => s) s

/-- TIMEOUT_MS passes with no progress (R297). -/
def collTimeout (d : Nat) (s : State) : State :=
  match s.engs.colls.find? (fun e => e.2.desc == some d) with
  | some e => collFail e.2 0x13 1 (myIndex e.2.slot s) (some 1) s
  | none => s

/-- A participant is declared unreachable: cause 4 (R297). -/
def collPeerLost (node : Nat) (s : State) : State :=
  each s.engs.colls (fun e s =>
    match e.2.desc.bind (fun d => descOf d s), compAt e.2.slot s with
    | some d, some c =>
      match (redOthers d.raw c s).find? (fun m => m.2 == node) with
      | some m => collFail e.2 0x13 4 m.1 (some 4) s
      | none => s
    | _, _ => s) s

/-- A collective whose descriptor ended otherwise leaves the table and tells the others (R297). -/
def collSweep (d : Nat) (s : State) : State :=
  match s.engs.colls.find? (fun e => e.2.desc == some d), descOf d s with
  | some e, some x => if x.phase == .finished then
      collFail e.2 x.status 0 (myIndex e.2.slot s) (if x.status = 0x3F then none else some 3) s else s
  | _, _ => s

/-- A detected transient error in the accumulators of an armed window part (R299, R300): a new epoch, REARM; a third ends
the collective with 0x30. -/
def rearmPart (slot id w : Nat) (s : State) : State :=
  match collAt slot id s, collDesc slot id s, compAt slot s with
  | some x, some d, some c =>
    match x.parts.find? (fun p => p.window == w) with
    | none => s
    | some p =>
      if p.replays ≥ 2 then collFail x 0x30 0 (myIndex slot s) (some 3) s else
      let s := setColl slot id (some { x with replays := x.replays + 1 }) s
      let ep := (p.epoch + 1) % 4
      collDo slot id (partials d.raw (stretches p.idx)) (fun xs s =>
        s |> modPart slot id w (fun p => { p with epoch := ep, replays := p.replays + 1, got := [], accs := xs.map (·.acc),
                                                  fast := xs.map (fun v => (v.fast.getD 0, v.bit)) })
          |> finc (ENG_RED_EVENT_CNT 3) |> ctrlAll d.raw c 2 w ep 0 0 |> finishPart slot id w |> collEnd slot id) s
  | _, _, _ => s

/-! ### The commands -/

/-- ACCUMULATE (R275). -/
def execAccumulate (d : Nat) (inp : EngIn) (s : State) := ok (runEng 2 1 d inp accumulate s)
/-- REDUCE_SCATTER (R275). -/
def execReduceScatter (d : Nat) (inp : EngIn) (s : State) := ok (collCmd 2 d inp s)
/-- ALLREDUCE (R275). -/
def execAllreduce (d : Nat) (inp : EngIn) (s : State) := ok (collCmd 3 d inp s)
/-- MERGE_APPLY (R275). -/
def execMergeApply (d : Nat) (inp : EngIn) (s : State) := ok (collCmd 4 d inp s)
/-- RUN (R295). -/
def execRun (d : Nat) (inp : EngIn) (s : State) := ok (runEng 2 5 d inp runRecipe s)
/-- JOIN (R286). -/
def execCollJoin (k : Pkt) (s : State) := ok (onCtrl 0 k (onJoin k) s)
/-- ARM (R288). -/
def execCollArm (k : Pkt) (s : State) := ok (onCtrl 1 k (onArm k) s)
/-- PARTIAL_ACC (R289). -/
def execPartialAcc (k : Pkt) (s : State) := ok (partialAcc k s)
/-- REARM (R299). -/
def execRearm (k : Pkt) (s : State) := ok (onCtrl 2 k (onArm k) s)
/-- DONE (R291). -/
def execCollDone (k : Pkt) (s : State) := ok (onCtrl 3 k (onDone k) s)
/-- ABORT (R297). -/
def execCollAbort (k : Pkt) (s : State) := ok (onCtrl 4 k (onAbort k) s)
/-- COLLECTIVE_TIMEOUT (R297). -/
def execCollectiveTimeout (d : Nat) (s : State) := ok (collTimeout d s)

/-- HEARTBEAT_MISS (R172): the third in a row, or every link of the node reported down, makes the master declare it. -/
def execHeartbeatMiss (node : BitVec 12) (linksDown : Bool) (s : State) :=
  let n := node.toNat
  let m := kgetD s.fab.missed n 0 + 1
  let s := { s with fab := { s.fab with missed := kput s.fab.missed n m } }
  ok (if isMaster s && (m ≥ 3 || linksDown) && !fbit (FAB_ROUTE_UNREACHABLE n) s then
    s |> collPeerLost n |> declareDown n else s)
/-- NODE_DOWN (R172). -/
def execNodeDown (node : BitVec 12) (via : Option Hdr) (s : State) :=
  ok (match via with
    | some h => onHdr 0x84 h (fun s => s |> collPeerLost h.tag.toNat |> nodeLost h.tag.toNat) s
    | none => s |> collPeerLost node.toNat |> nodeLost node.toNat)

end Sys2Proof.Machine
end

