-- ==== Sys2Proof/Machine/Gather.lean ====
section
/-! DEFINITION. The Gather engine (chapter 12): lookups, pooling, and scatter with merge. -/

namespace Sys2Proof.Machine

/-! ### Indices and rows (R305 to R308) -/

/-- What an index resolves to: rows (of table B when `true`), or why it is dropped. -/
inductive Resolved where
  | rows (l : List (Bool × Nat))
  | pad
  | invalid
  deriving DecidableEq, Repr

/-- Resolve an index. -/
def resolve (r : BitVec 1024) (x : Nat) : Resolved :=
  if x = 2 ^ (8 * gaWidth r) - 1 then .pad
  else match gaKind r with
    | 0 => if x ≥ gaRows r false then .invalid else .rows [(false, x)]
    | 1 => .rows [(false, hash64 x 0 (gaWidth r) (db r 56 8) % gaRows r false)]
    | _ =>
      let a := x / gaRows r true
      if a ≥ gaRows r false then .invalid else .rows [(false, a), (true, x % gaRows r true)]

/-- The lines a range overlaps. -/
def lineCount (va n : Nat) : Nat := if n = 0 then 0 else (va + n - 1) / 64 - va / 64 + 1

/-- Read a row: its values as binary32 with flags, and whether any line was bittern (R306). -/
def readRow (r : BitVec 1024) (row : Bool × Nat) : Eng (List (Nat × Nat) × Bool) := do
  let va := gaTable r row.1 + row.2 * gaStride r row.1
  let n := gaRowD r
  let bs ← readMarked va (gaRowBytes r)
  let bit := bs.any (·.2)
  let vs := (sliceElems (fmtBits (gaTbl r)) n 0 bs).map (fun e => readElem (gaTbl r) e.1)
  if gaTbl r ≥ 0x06 then
    let at_ := gaRowBytes r - 8
    let f (o : Nat) : Nat := leNat (((bs.drop (at_ + o)).take 4).map (·.1))
    return (vs.map (fun v => ffma32 false (cvtif v.1).1 (f 0) (f 4)), bit)
  else return (vs, bit)

/-- Read rows in order. -/
def readRows (r : BitVec 1024) : List (Bool × Nat) → Eng (List (List (Nat × Nat)) × Bool)
  | [] => pure ([], false)
  | x :: t => do
    let (v, b) ← readRow r x
    let (vs, c) ← readRows r t
    return (v :: vs, b || c)

/-- The terms of each element of an index's vector, weighted (R314). -/
def vectorTerms (r : BitVec 1024) (rows : List (List (Nat × Nat))) (w : Option Nat) : List (List (Nat × Nat)) :=
  let weigh (v : Nat × Nat) : Nat × Nat :=
    match w with
    | none => v
    | some w =>
      let (x, f) := fmul32 v.1 w
      (x, v.2 ||| f)
  let a := rows.getD 0 []
  let b := rows.getD 1 []
  let base : List (List (Nat × Nat)) :=
    if gaKind r ≠ 2 then a.map (fun v => [v])
    else match gaComb r with
      | 0 => (a.zip b).map (fun p => [p.1, p.2])
      | 1 => (a.zip b).map (fun p =>
          let (x, f) := fmul32 p.1.1 p.2.1
          [(x, p.1.2 ||| p.2.2 ||| f)])
      | _ => (a ++ b).map (fun v => [v])
  base.map (fun l => l.map weigh)

/-- Count a drop (R309). -/
def gaDrop (cause : Nat) (counted : Bool) : Eng Unit := do
  engMod (finc (ENG_GTH_DROP_CNT cause))
  if counted then engDrop 1

/-- Read index `j`, its weight, and resolve it: whether bittern was met. -/
def readIndex (r : BitVec 1024) (j : Nat) : Eng (Resolved × Option Nat × Bool) := do
  let (x, b) ← readNum (gaIdxVa r + j * gaWidth r) (gaWidth r)
  if gaWeighted r then
    let (w, c) ← readNum (gaWgtVa r + 4 * j) 4
    return (resolve r x, some w, b || c)
  else return (resolve r x, none, b)

/-- Count the drop of an index. -/
def dropIndex (r : BitVec 1024) (x : Resolved) : Eng Unit :=
  match x with
  | .pad => gaDrop 1 (!gaPadQuiet r)
  | .invalid => gaDrop 0 true
  | .rows _ => pure ()

/-- Count rows read. -/
def countRows (r : BitVec 1024) (rows : List (Bool × Nat)) : Eng Unit := do
  engMod (fadd (ENG_GTH_EVENT_CNT 1) rows.length)
  engBytes ((rows.map (fun x => 64 * lineCount (gaTable r x.1 + x.2 * gaStride r x.1) (gaRowBytes r))).sum)

/-- Write output row `k`. -/
def writeRow (r : BitVec 1024) (k : Nat) (vs : List Nat) (bit : Bool) : Eng Unit :=
  writeMarked (gaOutVa r + k * gaOutStride r) (packElems (fmtBits (gaOut r)) (vs.map (fun v => (v, bit))))

/-- A row of +0. -/
def zeroRow (r : BitVec 1024) : List Nat := List.replicate (gaD r) 0

/-! ### GATHER (R313, R314) -/

/-- The draw of output element `e` of row `k`. -/
def gaDraw (r : BitVec 1024) (k e : Nat) : Nat := draw (gaSeed r) (gaStep r) (k * gaD r + e) 0x50

/-- Exact sums of lists of terms. -/
def sumTerms (xs : List Accum) (ts : List (List (Nat × Nat))) : List Accum :=
  (xs.zip ts).map (fun p => p.2.foldl (fun a t => accTerm t.1 false a) p.1)

/-- The flags of terms. -/
def termFlags (ts : List (List (Nat × Nat))) : Nat := ts.foldl (fun m l => l.foldl (fun m t => m ||| t.2) m) 0

/-- GATHER from index `j` on. -/
def gatherGo (r : BitVec 1024) : Nat → Nat → Nat → Eng Nat
  | 0, _, fl => pure fl
  | n + 1, j, fl => do
    let (x, w, b) ← readIndex r j
    engConsume b
    match x with
    | .rows l =>
      let (rows, c) ← readRows r l
      countRows r l
      engConsume c
      let ts := vectorTerms r rows w
      let vs := (sumTerms (List.replicate (gaD r) {}) ts).mapIdx (fun e a => accDeliver (gaOut r) (gaRnd r) (gaDraw r j e) a)
      writeRow r j (vs.map (·.1)) (b || c)
      gatherGo r n (j + 1) (vs.foldl (fun m v => m ||| v.2) (fl ||| termFlags ts))
    | x =>
      dropIndex r x
      writeRow r j (zeroRow r) b
      gatherGo r n (j + 1) fl

/-- GATHER. -/
def gather (r : BitVec 1024) : Eng Unit := do engDetail (← gatherGo r (gaN r) 0 0)

/-! ### POOL (R315) -/

/-- An exact sum divided by `n`, rounded once. -/
def meanDeliver (code mode rnd n : Nat) (a : Accum) : Nat × Nat :=
  match accValue a, fmtOf code with
  | (.fin neg m e, i), some f =>
    if m = 0 then accDeliver code mode rnd a else
    let q := m * 2 ^ 128 / n
    let (b, fl) := roundMag f mode rnd neg q (e - 128) (m * 2 ^ 128 % n ≠ 0)
    (b, fl ||| i ||| (match fdec f b with | .fin .. => 0 | _ => fNF))
  | _, _ => accDeliver code mode rnd a

/-- What a bag has gathered. -/
structure BagS where
  sums : List Accum
  max : List (Option Nat)
  n : Nat := 0
  bit : Bool := false
  flags : Nat := 0

/-- The one term of each element under MAX: COMPOSED ADD adds its two. -/
def maxTerm (r : BitVec 1024) (rows : List (List (Nat × Nat))) (w : Option Nat) : List (Nat × Nat) :=
  if gaKind r = 2 && gaComb r = 0 then
    let s := ((rows.getD 0 []).zip (rows.getD 1 [])).map (fun p =>
      let (x, f) := fadd32 p.1.1 p.2.1
      (x, p.1.2 ||| p.2.2 ||| f))
    match w with
    | none => s
    | some w => s.map (fun v =>
        let (x, f) := fmul32 v.1 w
        (x, v.2 ||| f))
  else (vectorTerms r rows w).map (fun l => l.headD (0, 0))

/-- Add index `j` and those after it to a bag. -/
def bagGo (r : BitVec 1024) : Nat → Nat → BagS → Eng BagS
  | 0, _, g => pure g
  | n + 1, j, g => do
    let (x, w, b) ← readIndex r j
    engConsume b
    match x with
    | .rows l =>
      let (rows, c) ← readRows r l
      countRows r l
      engConsume c
      let bit := g.bit || b || c
      if gaOp r = 2 then
        let ts := maxTerm r rows w
        let m := (g.max.zip ts).map (fun p => match p.1 with
          | none => (p.2.1, p.2.2)
          | some y =>
            let (z, f) := fmax32 y p.2.1
            (z, f ||| p.2.2))
        bagGo r n (j + 1) { g with max := m.map (fun v => some v.1), n := g.n + 1, bit,
                                   flags := m.foldl (fun a v => a ||| v.2) g.flags }
      else
        let ts := vectorTerms r rows w
        bagGo r n (j + 1) { g with sums := sumTerms g.sums ts, n := g.n + 1, bit, flags := g.flags ||| termFlags ts }
    | x =>
      dropIndex r x
      bagGo r n (j + 1) { g with bit := g.bit || b }

/-- The elements of a bag's output row. -/
def bagOut (r : BitVec 1024) (k : Nat) (g : BagS) : List (Nat × Nat) :=
  if g.n = 0 then (zeroRow r).map (fun v => (v, 0))
  else match gaOp r with
    | 2 => g.max.mapIdx (fun e v => writeElem (gaOut r) (gaRnd r) (gaDraw r k e) (v.getD 0))
    | 1 => g.sums.mapIdx (fun e a => meanDeliver (gaOut r) (gaRnd r) (gaDraw r k e) g.n a)
    | _ => g.sums.mapIdx (fun e a => accDeliver (gaOut r) (gaRnd r) (gaDraw r k e) a)

/-- POOL from bag `k` on. -/
def poolGo (r : BitVec 1024) : Nat → Nat → Nat → Eng Nat
  | 0, _, fl => pure fl
  | n + 1, k, fl => do
    let (lo, b) ← readNum (gaOffVa r + k * gaWidth r) (gaWidth r)
    let (hi, c) ← readNum (gaOffVa r + (k + 1) * gaWidth r) (gaWidth r)
    engConsume (b || c)
    if hi < lo || hi > gaN r then
      gaDrop 2 true
      writeRow r k (zeroRow r) (b || c)
      poolGo r n (k + 1) fl
    else
      let g ← bagGo r (hi - lo) lo { sums := List.replicate (gaD r) {}, max := List.replicate (gaD r) none }
      if g.n = 0 then engMod (finc (ENG_GTH_EVENT_CNT 5))
      let vs := bagOut r k g
      writeRow r k (vs.map (·.1)) (g.bit || b || c)
      poolGo r n (k + 1) (vs.foldl (fun m v => m ||| v.2) (fl ||| g.flags))

/-- POOL. -/
def pool (r : BitVec 1024) : Eng Unit := do engDetail (← poolGo r (gaBags r) 0 0)

/-! ### SCATTER_MERGE (R316 to R318) -/

/-- What a target row has merged. -/
structure RowS where
  sums : List Accum
  n : Nat := 0
  bit : Bool := false

/-- Rows by table·2^32 + row. -/
def rowKey (x : Bool × Nat) : Nat := b2n x.1 * 2 ^ 32 + x.2

/-- Merge a gradient into a row. -/
def mergeRow (x : Bool × Nat) (ts : List Nat) (bit : Bool) (m : KMap RowS) : KMap RowS :=
  let k := rowKey x
  let o := (kget? m k).getD { sums := List.replicate ts.length {} }
  kput m k { sums := (o.sums.zip ts).map (fun p => accTerm p.2 false p.1), n := o.n + 1, bit := o.bit || bit }

/-- Merge the contributions from `j` on: the rows, and the flags of the terms. -/
def mergeGo (r : BitVec 1024) : Nat → Nat → KMap RowS → Nat → Eng (KMap RowS × Nat)
  | 0, _, m, fl => pure (m, fl)
  | n + 1, j, m, fl => do
    let (x, w, b) ← readIndex r j
    engConsume b
    match x with
    | .rows l =>
      let bs ← readMarked (gaOutVa r + j * gaOutStride r) (gaD r * (fmtBits (gaOut r) / 8))
      let bit := b || bs.any (·.2)
      engConsume bit
      let gs := (sliceElems (fmtBits (gaOut r)) (gaD r) 0 bs).map (fun e =>
        let v := readElem (gaOut r) e.1
        match w with
        | none => v
        | some w =>
          let (x, f) := fmul32 w v.1
          (x, v.2 ||| f))
      let vs := gs.map (·.1)
      let half := gaKind r = 2 && gaComb r = 2
      let m := l.foldl (fun m x =>
        mergeRow x (if half then (if x.1 then vs.drop (gaD r / 2) else vs.take (gaD r / 2)) else vs) bit m) m
      engBytes (gaD r * (fmtBits (gaOut r) / 8))
      mergeGo r n (j + 1) m (gs.foldl (fun a v => a ||| v.2) fl)
    | x =>
      dropIndex r x
      mergeGo r n (j + 1) m fl

/-- Update a row by addition: the old value and the merged sum as one exact sum. -/
def addRow (r : BitVec 1024) (x : Bool × Nat) (o : RowS) : Eng Nat := do
  let va := gaTable r x.1 + x.2 * gaStride r x.1
  let n := gaRowD r
  let bs ← readMarked va (gaRowBytes r)
  let bit := o.bit || bs.any (·.2)
  engConsume bit
  let old := (sliceElems (fmtBits (gaTbl r)) n 0 bs).map (fun e => readElem (gaTbl r) e.1)
  let vs := (o.sums.zip old).mapIdx (fun e p =>
    accDeliver (gaTbl r) (gaRnd r) (draw (gaSeed r) (gaStep r) (x.2 * n + e) (if x.1 then 0x52 else 0x51)) (accTerm p.2.1 false p.1))
  writeMarked va (packElems (fmtBits (gaTbl r)) (vs.map (fun v => (v.1, bit))))
  return vs.foldl (fun m v => m ||| v.2) (old.foldl (fun m v => m ||| v.2) 0)

/-- Update a row by a recipe. -/
def recipeRow (r : BitVec 1024) (blocks : List (BitVec 3072)) (x : Bool × Nat) (o : RowS) : Eng Nat := do
  let b := gaBlock r blocks
  let row := x.2
  let g := o.sums.mapIdx (fun e a => accDeliver (gaOut r) (gaRnd r) (draw (gaSeed r) (gaStep r) (row * gaD r + e) 0x51) a)
  let bases := [gaTable r false + row * gaStride r false, gaAuxVa r + row * gaAuxStride r,
                gaAuxVa r + row * gaAuxStride r + gaAuxGap r, 0]
  let p := blocks.headD 0
  let xin : ElemIn := { consts := blkConsts b, scalars := (List.range 8).map (fun i => blk p (8 + 4 * i) 4),
                        seed := gaSeed r, step := gaStep r, index := 0 }
  reachRange b bases true (gaD r + 1) 0 (gaD r)
  let q ← recipeRange b bases xin (row * gaD r) (some (g.map (fun v => (v.1, o.bit)))) 0 (gaD r + 1) 0 (gaD r) {}
  return g.foldl (fun m v => m ||| v.2) q.flags

/-- Update the merged rows. -/
def updateRows (r : BitVec 1024) (blocks : List (BitVec 3072)) : List (Nat × RowS) → Nat → Eng Nat
  | [], fl => pure fl
  | (k, o) :: t, fl => do
    let x : Bool × Nat := (k ≥ 2 ^ 32, k % 2 ^ 32)
    let f ← if gaRecipe r then recipeRow r blocks x o else addRow r x o
    engMod (finc (ENG_GTH_EVENT_CNT 2))
    updateRows r blocks t (fl ||| f)

/-- The merge slots a descriptor may hold (R327). -/
def mergeShare (s : State) : Nat :=
  let v := ((s.img.engine[0xC0]?).map (·.toNat)).getD 0
  2 ^ (if v = 0 then 24 else if v < 16 then 16 else min v 24)

/-- SCATTER_MERGE. -/
def scatterMerge (r : BitVec 1024) : Eng Unit := do
  let e ← get
  let blocks := ((descOf e.id e.st).map (·.recipe)).getD []
  let (m, fl) ← mergeGo r (gaN r) 0 [] 0
  let perPass := max 1 (mergeShare e.st / gaRowD r)
  let further := (m.length + perPass - 1) / perPass - 1
  if further > 0 then
    engMod (fun s => s |> fadd (ENG_GTH_EVENT_CNT 3) further |> fset ENG_GTH_STATUS_PASS_STK 1)
  let fl ← updateRows r blocks m fl
  let top := m.foldl (fun a x => max a x.2.n) 0
  engMod (fun s => s |> fset ENG_GTH_HOTROW_CMP_ID e.c.cmpId |> fset ENG_GTH_HOTROW_CONTRIB (min top (2 ^ 32 - 1)))
  engDetail fl

/-! ### The commands -/

/-- The status of a Gather command that dropped something (R309). -/
def withDrops (f : Eng Unit) : Eng Unit := do
  f
  if (← get).dropped > 0 then modify (fun e => { e with status := 0x02 })

/-- GATHER (R303). -/
def execGather (d : Nat) (inp : EngIn) (s : State) := ok (runEng 3 1 d inp (fun r => withDrops (gather r)) s)
/-- POOL (R315). -/
def execPool (d : Nat) (inp : EngIn) (s : State) := ok (runEng 3 2 d inp (fun r => withDrops (pool r)) s)
/-- SCATTER_MERGE (R317). -/
def execScatterMerge (d : Nat) (inp : EngIn) (s : State) := ok (runEng 3 3 d inp (fun r => withDrops (scatterMerge r)) s)

end Sys2Proof.Machine
end

