-- ==== Sys2Proof/Machine/Power.lean ====
section
/-! DEFINITION. Power (chapter 17): the power plan, tiles that gate and wake, the governor, the thermal loop, the wear
budget. -/

namespace Sys2Proof.Machine

/-! ### The plans -/

/-- A little-endian field of `n` bytes at `off` of a section; bytes beyond it read as zero. -/
def secField (b : List Byte) (off n : Nat) : Nat := leNat ((b.drop off).take n)

/-- SUSTAINED_W (R428). -/
def sustainedW (s : State) : Nat :=
  let v := secField s.img.powerPlan 0 2
  if v = 0 then 1100 else min 1100 (max 300 v)

/-- BURST_W (R428). -/
def burstW (s : State) : Nat :=
  let v := secField s.img.powerPlan 2 2
  if v = 0 then 1300 else min 1300 (max (sustainedW s) v)

/-- BURST_EN (R428). -/
def burstEn (s : State) : Bool := bitAt (secField s.img.powerPlan 4 1) 0

/-- WEAR_BUDGET_H in ms (R428). -/
def wearBudgetMs (s : State) : Nat :=
  let v := secField s.img.powerPlan 0x0C 2
  (if v = 0 then 500 else min 500 v) * 3600000

/-- Tile `t` is named in ALWAYS_ON_TILES (R428). -/
def alwaysOn (t : Nat) (s : State) : Bool := bitAt (secField s.img.powerPlan 0x10 4) t

/-- A pan code as R414 takes it. -/
def panCode (v : Nat) : Nat := if v = 0 then 160 else min 160 (max 40 v)

/-- The code that the image sets for tile `t`, lowered by its TILE_DROP (R413, R459). -/
def tileMaxCode (t : Nat) (s : State) : Nat :=
  let c := min (panCode (secField s.img.clockPlan (0x10 + t) 1)) (panCode (secField s.img.clockPlan 1 1))
  min c (max 40 (panCode (secField s.img.clockPlan (0x10 + t) 1) - kgetD s.pan.drop t 0))

/-- The clock code of tile `t` (R413): under the fallback plan the pans run at IRO ÷ 4, code 80. -/
def tileCode (t : Nat) (s : State) : Nat :=
  if fget (TIL_STATE_POWER t) s < 2 then 0
  else if fget CLK_STATUS_PLAN s = 2 then 80
  else min (tileMaxCode t s) (fget PWR_STATUS_GOV_CODE s)

/-- Bring PWR_TILE_CODE up to date. -/
def showCodes (s : State) : State :=
  each (List.range 4) (fun k s =>
    fset (PWR_TILE_CODE k) ((List.range 8).foldl (fun a j => a + tileCode (8 * k + j) s * 2 ^ (8 * j)) 0) s) s

/-! ### Domains -/

/-- Switch power domain `n` on or off. -/
def setDomain (n : Nat) (on : Bool) (s : State) : State :=
  let v := fget PWR_DOMAIN_ON s
  fset PWR_DOMAIN_ON (if on then v ||| 2 ^ n else v - (v &&& 2 ^ n)) s

/-- Power domain `n` is on. -/
def domainOn (n : Nat) (s : State) : Bool := bitAt (fget PWR_DOMAIN_ON s) n

/-- Set or clear a tile's bit of PWR_RETAIN. -/
def setRetain (t : Nat) (on : Bool) (s : State) : State :=
  let v := fget PWR_RETAIN_SELF_REFRESH s
  fset PWR_RETAIN_SELF_REFRESH (if on then v ||| 2 ^ t else v - (v &&& 2 ^ t)) s

/-- Self-refresh exit of tile `t`'s vaults (R22): the host accesses that waited go on, their wait counted. -/
def refreshExit (t : Nat) (s : State) : State :=
  if !bitAt (fget PWR_RETAIN_SELF_REFRESH s) t then s else
  let s := setRetain t false s
  let mine (h : HeldReq) : Bool :=
    match entryOf h.req.port h.req.biId.toNat s with
    | some k => match hdmPa h.req.port k h.req.hpa.toNat s, entryComp h.req.port k s with
      | some pa, some c => (physOf c pa s).any (fun p => p < farBase && tileOf p == t)
      | _, _ => true
    | none => true
  let go := s.prt.srWait.filter mine
  let s := { s with prt := { s.prt with srWait := s.prt.srWait.filter (fun h => !mine h) } }
  each go (fun h s => s |> addFreeNs (PRT_EVENT_CNT h.req.port 3) |> hostSubmit h) s

/-- A tile may be powered: the core is on and the tile is not retired. -/
def mayPower (t : Nat) (s : State) : Bool := domainOn 36 s && !fbit (TIL_PAN_SPARE_RETIRED t) s

/-- Start a tile's wake (R424); a wake wins over a gating that has not ended its flush (R423). -/
def wakeTile (t : Nat) (s : State) : State :=
  match fget (TIL_STATE_POWER t) s with
  | 0 => if mayPower t s then s |> fset (TIL_STATE_POWER t) 1 |> setDomain t true |> finc (PWR_EVENT_CNT 5) else s
  | 3 => s |> fset (TIL_STATE_POWER t) 2
  | _ => s

/-- A tile has woken (R424): a new incarnation, its clock at its code, its vaults out of self-refresh. -/
def wokeTile (t : Nat) (s : State) : State :=
  if fget (TIL_STATE_POWER t) s ≠ 1 then s else
  let i := (fget (TIL_STATE_INCARNATION t) s + 1) % 65536
  s |> fset (TIL_STATE_POWER t) 2 |> fset (TIL_STATE_INCARNATION t) (if i = 0 then 1 else i) |> showCodes |> refreshExit t

/-- A piece runs or waits on a pan of the tile. -/
def tileBusy (t : Nat) (s : State) : Bool := s.pan.pieces.any (fun p => p.on / 128 == t || p.pan / 128 == t && p.waiting)

/-- The tile must stay awake (R423). -/
def tileHeld (t : Nat) (s : State) : Bool :=
  alwaysOn t s || bitAt (fget PWR_WAKE_HOLD_ON s) t || fbit (TIL_ADOPT_SELFTEST t) s || fbit (TIL_ADOPT_ADOPTING t) s

/-- The copies that a tile holds: slot and line. -/
def tileCopies (t : Nat) (s : State) : List (Nat × Nat) :=
  (s.coh.copies.filter (fun e => e.1 / 2 ^ 56 == t)).map (fun e => (e.1 / 2 ^ 50 % 64, e.1 % 2 ^ 50))

/-- TILE_GATE: an idle tile starts to flush its line caches (R423, R227). -/
def gateTile (t : Nat) (s : State) : State :=
  if fget (TIL_STATE_POWER t) s ≠ 2 || tileBusy t s || tileHeld t s then s else
  s |> fset (TIL_STATE_POWER t) 3 |> each (tileCopies t s) (fun x s => cacheEvict (.tile (Fin.ofNat 32 t)) x.1 x.2 s)

/-- Take a tile out of a directory entry that names it as a sharer. -/
def purgeEntry (t : Nat) (d : DirLine) : DirLine :=
  if (d.st == .s || d.st == .sf) && (d.sharers.contains (.tile t) || d.fw == some (.tile t)) then clearAgent (some (.tile t)) d else d

/-- Purge a tile's directory references and filter entries (R227). -/
def purgeTile (t : Nat) (s : State) : State :=
  let s := each (s.coh.dir.filter (fun e => purgeEntry t e.2 != e.2)) (fun e s =>
    setDir (e.1 / 2 ^ 50) (e.1 % 2 ^ 50) (purgeEntry t e.2) s) s
  each (s.coh.filter.filter (fun e => purgeEntry t e.2.dir != e.2.dir)) (fun e s =>
    let f := { e.2 with dir := purgeEntry t e.2.dir }
    let s := setFilt (e.1 / 2 ^ 50) (e.1 % 2 ^ 50) f s
    if (filterTiles f).isEmpty && f.dir.txn.isNone then filterEvict (e.1 / 2 ^ 50) (e.1 % 2 ^ 50) s else s) s

/-- A tile's domain is off: nothing of it is kept (R226). -/
def tileOff (t : Nat) (s : State) : State :=
  s |> fset (TIL_STATE_POWER t) 0 |> setDomain t false |> showCodes

/-- TILE_GATED: the flush has ended when no copy is left; the references are purged and the domain switched off. -/
def gatedTile (t : Nat) (s : State) : State :=
  if fget (TIL_STATE_POWER t) s ≠ 3 || !(tileCopies t s).isEmpty then s else s |> purgeTile t |> tileOff t

/-- VAULT_SELF_REFRESH: a gated tile's vaults enter self-refresh (R425). -/
def vaultSleep (t : Nat) (s : State) : State := if fget (TIL_STATE_POWER t) s = 0 then setRetain t true s else s

/-- HOLD_ON was written: tiles newly held wake (R423). -/
def holdOnWritten (s : State) : State :=
  each (List.range 32) (fun t s => if bitAt (fget PWR_WAKE_HOLD_ON s) t then wakeTile t s else s) s

/-! ### The governor (R427 to R431) -/

/-- Burst is refused: the wear budget is spent (R433). -/
def refused (s : State) : Bool := s.lr.cur.burstUsed ≥ s.lr.cur.burstGranted

/-- One step of the governor: 8 codes of the cap, or at code 40 and under the fallback plan a sixteenth of pan issue. -/
def governorStep (s : State) : State :=
  let c := fget PWR_STATUS_GOV_CODE s
  let s := if fget CLK_STATUS_PLAN s = 2 || c ≤ 40 then
      { s with pwr := { s.pwr with throttle := min 16 (s.pwr.throttle + 1) } }
    else s |> fset PWR_STATUS_GOV_CODE (max 40 (c - 8)) |> fset PWR_STATUS_GOV_STK 1
  { s with pwr := { s.pwr with wait := 10 } } |> finc (PWR_EVENT_CNT 0) |> showCodes

/-- The buckets after 1 µs at `mw` (R429). -/
def buckets (mw : Nat) (s : State) : State :=
  let p := s.pwr
  let burst := if mw > sustainedW s * 1000 then p.burst - 10 else min 20000000 (p.burst + 1)
  let hot := mw > burstW s * 1000
  let calm := if hot then 0 else min 50000 (p.calm + 1)
  let spike := if hot then p.spike - 1 else if calm ≥ 50000 then 5000 else p.spike
  { s with pwr := { p with burst, spike, calm } }

/-- The beginning of an episode above SUSTAINED_W: a burst, or a refused one. -/
def episode (exceeded : Bool) (s : State) : State :=
  let new := exceeded && !s.pwr.inBurst
  let s := { s with pwr := { s.pwr with inBurst := exceeded } }
  if !new then s
  else if refused s then s |> finc (PWR_EVENT_CNT 3) |> fset PWR_STATUS_REFUSED_STK 1 |> eventF 0x0032 0
  else onlyIf (burstEn s) (finc (PWR_EVENT_CNT 1)) s

/-- GOVERNOR_SAMPLE: the measured power of one µs, in mW. Steps are 10 µs apart (Example 17.2). -/
def governorSample (mw : Nat) (s : State) : State :=
  let exceeded : Bool := mw > sustainedW s * 1000
  let hot : Bool := mw > burstW s * 1000
  let s := s |> buckets mw |> episode exceeded
  let p := s.pwr
  let above : Bool := mw > 1500000
  let s := onlyIf (above && !p.inSpike) (finc (PWR_EVENT_CNT 2)) s
  let low : Bool := p.burst ≤ 100000 || (hot && p.spike ≤ 200) || refused s || !burstEn s
  let stepping : Bool := exceeded && (fget PWR_STATUS_LIMIT s == 3 || low || above)
  let s := { s with pwr := { s.pwr with inSpike := above, sum := p.sum + mw, count := p.count + 1, exceeded := p.exceeded || exceeded,
                                        last := mw, wait := p.wait - 1 } }
  let s := if stepping && p.wait ≤ 1 then governorStep s else s
  s |> fset PWR_STATUS_LIMIT (if stepping then 3 else if hot then 2 else if exceeded then 1 else 0)
    |> fsetb PWR_STATUS_REFUSING (refused s)

/-- GOVERNOR_RAISE (R431): under the fallback plan, and while issue is throttled, the throttle is what is released. -/
def governorRaise (s : State) : State :=
  let p := s.pwr
  let ready := p.last + 50000 ≤ sustainedW s * 1000 || (p.burst ≥ 10000000 && burstEn s && !refused s)
  if fbit PWR_STATUS_THERMAL s || fget PWR_STATUS_LIMIT s = 3 || !ready then s
  else if p.throttle > 0 then { s with pwr := { p with throttle := p.throttle - 1 } }
  else if fget CLK_STATUS_PLAN s = 2 then s
  else s |> fset PWR_STATUS_GOV_CODE (min 160 (fget PWR_STATUS_GOV_CODE s + 8)) |> showCodes

/-- A PMBus transaction that failed its retries (R445). -/
def pmbusFailed (rail : Nat) (s : State) : State := s |> fset GLB_PKG_STATUS_PMBUS_ERR_STK 1 |> eventU 0x0031 0 rail

/-- POWER_CALIBRATION (R427): the regulators' readings, which later samples are calibrated with. -/
def powerCalibration (mw : Nat) (read : Bool) (s : State) : State :=
  if read then { s with pwr := { s.pwr with calib := mw } } else
    s |> fset GLB_PKG_STATUS_PMBUS_ERR_STK 1 |> eventF 0x0031 0

/-- THERMAL_LOOP (R432): it holds above 103 °C or 93 °C, and releases 3 °C below. -/
def thermalLoop (logic dram : Int) (s : State) : State :=
  let s := { s with pwr := { s.pwr with refresh2 := dram > 85 } }
  if logic > 103 || dram > 93 then
    s |> fset PWR_STATUS_THERMAL 1 |> fset PWR_STATUS_THERMAL_STK 1 |> finc (PWR_EVENT_CNT 4)
      |> fset PWR_STATUS_GOV_CODE (max 40 (fget PWR_STATUS_GOV_CODE s - 8)) |> showCodes
  else if logic ≤ 100 && dram ≤ 90 then fset PWR_STATUS_THERMAL 0 s
  else s

/-! ### The wear budget (R433, R434) -/

/-- Bring PWR_BURST and the budget's bits up to date. -/
def showBudget (s : State) : State :=
  let c := s.lr.cur
  s |> fset PWR_BURST_USED_S (c.burstUsed / 1000) |> fset PWR_BURST_GRANTED_S (c.burstGranted / 1000)
    |> fsetb PWR_STATUS_REFUSING (refused s)
    |> onlyIf (c.burstUsed * 10 ≥ c.burstGranted * 9) (fset PWR_STATUS_BUDGET_WARN_STK 1)

/-- BURST_CHARGE: a 1 ms interval ends; one with a sample above SUSTAINED_W is charged, and the record is written ahead. -/
def burstCharge (s : State) : State :=
  let p := s.pwr
  let s := if p.count = 0 then s else fset PWR_STATUS_POWER_W (min 2047 (p.sum / p.count / 1000)) s
  let s := { s with pwr := { s.pwr with sum := 0, count := 0, exceeded := false } }
  if !p.exceeded then s else
  let used := s.lr.cur.burstUsed + 1
  let s := { s with lr := { s.lr with cur := { s.lr.cur with burstUsed := used } } }
  let s := if used ≤ s.lr.ahead then s else
    { s with lr := { s.lr with ahead := (used / 60000 + 1) * 60000 } } |> writeSummary
  showBudget s

/-- RENEW = 1 (R434). -/
def renew (s : State) : State :=
  let c := s.lr.cur
  let want := c.burstGranted + wearBudgetMs s
  let cap := 1800000000 + 1800000000 * c.poweredS / 31557600
  let new := min want cap
  let s := fset PWR_RENEW_RENEW 0 s
  if new ≤ c.burstGranted then fset PWR_RENEW_RESULT 2 s
  else s |> modRecord (fun c => { c with burstGranted := new }) |> logEvent 0x0E 0 new
    |> fset PWR_RENEW_RESULT (if want ≤ cap then 0 else 1) |> showBudget

/-! ### The commands -/

/-- TILE_GATE (R423). -/
def execTileGate (t : Fin 32) (s : State) := ok (gateTile t s)
/-- TILE_GATED (R423). -/
def execTileGated (t : Fin 32) (s : State) := ok (gatedTile t s)
/-- TILE_WAKE (R424). -/
def execTileWake (t : Fin 32) (s : State) := ok (wakeTile t s)
/-- VAULT_SELF_REFRESH (R425). -/
def execVaultSelfRefresh (t : Fin 32) (s : State) := ok (vaultSleep t s)
/-- SELF_REFRESH_EXIT (R22). -/
def execSelfRefreshExit (t : Fin 32) (s : State) := ok (refreshExit t s)
/-- GOVERNOR_SAMPLE (R430). -/
def execGovernorSample (mw : Nat) (s : State) := ok (governorSample mw s)
/-- GOVERNOR_RAISE (R431). -/
def execGovernorRaise (s : State) := ok (governorRaise s)
/-- POWER_CALIBRATION (R427). -/
def execPowerCalibration (mw : Nat) (read : Bool) (s : State) := ok (powerCalibration mw read s)
/-- THERMAL_LOOP (R432). -/
def execThermalLoop (logic dram : Int) (s : State) := ok (thermalLoop logic dram s)
/-- BURST_CHARGE (R433). -/
def execBurstCharge (s : State) := ok (burstCharge s)

end Sys2Proof.Machine
end

