-- ==== Sys2Proof/Machine/Regs.lean ====
section
/-! DEFINITION. Finding registers: the register at an address, its fields and their access types (R11, R12). -/

namespace Sys2Proof.Machine

/-- The index of each dimension of a register array, outermost first, or none when the offset falls beside them. -/
def indices : List (Nat × Nat) → Nat → Option (List Nat)
  | [], 0 => some []
  | [], _ => none
  | (stride, count) :: r, off =>
    if off / stride < count then (indices r (off % stride)).map (off / stride :: ·) else none

/-- The fields of the register at an address, in the array that `d` describes. -/
def fieldsIn (d : RegDef) (addr : Nat) : Option (List (Fld × Access)) :=
  if addr < d.base then none else (indices d.dims (addr - d.base)).map (fun l => d.flds (fun i => l.getD i 0))

/-- The fields of the register at an address of the device register space. -/
def regAt (addr : Nat) : Option (List (Fld × Access)) := regTable.findSome? (fun d => fieldsIn d addr)

/-- The access type of the field with a key. -/
def accessOf (key : Nat) : Option Access :=
  (regAt (key / 64 * 8)).bind (fun l => (l.find? (fun f => f.1.key == key)).map (·.2))

/-- The value of the register whose fields are `l`. -/
def regValue (l : List (Fld × Access)) (s : State) : Nat := l.foldl (fun a f => a + fget f.1 s * 2 ^ (f.1.key % 64)) 0

/-- Blocks by the upper bits of the address (R548). -/
def inMgt (addr : Nat) : Bool := addr / 2 ^ 20 == 0xC
/-- See `inMgt`. -/
def inBrl (addr : Nat) : Bool := addr / 2 ^ 20 == 0xD
/-- See `inMgt`. -/
def inLrc (addr : Nat) : Bool := addr / 2 ^ 20 == 0xE
/-- See `inMgt`. -/
def inCmp (addr : Nat) : Bool := addr / 2 ^ 20 == 1
/-- See `inMgt`. -/
def inSlc (addr : Nat) : Bool := addr / 2 ^ 24 == 1

end Sys2Proof.Machine
end

