-- ==== Sys2Proof/Machine/Reset.lean ====
section
/-! DEFINITION. Links that fall, the core switched off, and the two resets (R14, R418, R443, R448). -/

namespace Sys2Proof.Machine

/-! ### A link falls -/

/-- The agents that attach at a port: slot and agent number of each valid entry. -/
def portAgents (p : Nat) (s : State) : List (Nat × Nat) :=
  ((List.range 16).filter (fun k => fbit (PRT_AGENT_VALID p k) s)).map (fun k =>
    (fget (PRT_AGENT_SLOT p k) s, fget (PRT_AGENT_AGENT p k) s))

/-- A link goes down with the consequences of its role: host agents dead (R110), the expander failed (R87), failover
(R170). -/
def portFell (p : Nat) (s : State) : State :=
  if !fbit (PRT_STATUS_LINK_UP p) s then s else
  match fget (PRT_STATUS_ROLE p) s with
  | 3 => linkDown p true s
  | 2 => s |> portDown p |> farFailed p
  | _ => s |> portDown p |> each (portAgents p s) (fun x s => hostDead x.1 x.2 s)

/-- Every link goes down. -/
def linksFall (s : State) : State := each (List.range 24) portFell s

/-! ### The core without power -/

/-- What lies in PD00 to PD36 is lost: sluices, translation, directory, caches, fabric state, engine state, pieces. -/
def volatileLost (s : State) : State :=
  { s with
    coh := { births := s.coh.births },
    fab := {},
    slc := { nextDesc := s.slc.nextDesc, nextList := s.slc.nextList },
    xl := {},
    engs := {},
    mem := { s.mem with busy := [], waits := [], tier := [], enumerated := false, allotted := false,
                        expanders := s.mem.expanders.map (fun e => { e with up := false, retainWait := false, kept := false }) },
    prt := { perst := s.prt.perst },
    pan := { s.pan with pieces := [], subst := [], errors := [], struck := [] },
    hv := { s.hv with armed := [], dead := [],
                      views := s.hv.views.map (fun v => { v with closing := none }),
                      regions := s.hv.regions.map (fun r => { r with publishing := none, queue := [] }) } }

/-- Switch PD00 to PD36 off, with the near store in self-refresh (R418, R443, R448). -/
def coreOff (s : State) : State :=
  s |> linksFall |> volatileLost
    |> each (List.range 32) (fun t => fset (TIL_STATE_POWER t) 0)
    |> fset PWR_DOMAIN_ON 0xE000000000 |> fset PWR_RETAIN_SELF_REFRESH 0xFFFFFFFF |> showCodes

/-! ### Resets (R14) -/

/-- Fields that hold a level or a sampled value, which a reset does not change: the straps and PWRGD_MAIN (R441, R442). -/
def levelKey (k : Nat) : Bool :=
  [GLB_PKG_STATUS_STRAP_ID, GLB_PKG_STATUS_STRAP_MCAP, GLB_PKG_STATUS_STRAP_BOOT, GLB_PKG_STATUS_STRAP_I3C,
   GLB_PKG_STATUS_PWRGD_MAIN].any (fun f => f.key == k)

/-- Fields that show what PD37 and PD38 hold across a warm reset: the clock monitors (R421), the pending non-maskable
event (R420), the debug lock, OTP and key slots (R483, R485), and the package pins. -/
def liveKey (k : Nat) : Bool :=
  [CLK_STATUS_XREF_A_OK, CLK_STATUS_XREF_B_OK, CLK_STATUS_LFREF_OK, CLK_STATUS_IRO_QUAL, CLK_STATUS_NMI_PENDING,
   SEC_STATUS_DEBUG_UNLOCKED, SEC_STATUS_REQUIRE_PQ, SEC_STATUS_IMGKEY, SEC_STATUS_UNLOCK_CNT, SEC_KEY_LIVE,
   GLB_PKG_STATUS_ALERT, GLB_PKG_STATUS_THERMTRIP].any (fun f => f.key == k)

/-- A field keeps its value across a warm reset (R14). -/
def warmKeeps (k : Nat) : Bool :=
  let a := k / 8
  levelKey k || liveKey k || inMgt a || inBrl a || inLrc a ||
    (match accessOf k with
     | some .rws => true
     | some .w1cHu => true
     | some .cnt => true
     | _ => false)

/-- The frame tables that a reset leaves behind: those of the compositions that were present (R542). -/
def keepFrames (s : State) : List Comp :=
  s.comps ++ (s.img.waiting ++ s.img.kept).filter (fun c => !s.comps.any (fun x => x.cmpId == c.cmpId))

/-- The XREF that the main-path PLLs lock to from START (R415): CORE_REF when it passed, else the other. -/
def startLock (s : State) : State :=
  let want := b2n (bitAt (secField s.img.clockPlan 0 1) 0)
  let good (x : Nat) : Bool := fbit (if x = 0 then CLK_STATUS_XREF_A_OK else CLK_STATUS_XREF_B_OK) s
  { s with clk := { s.clk with lockTo := if good want then some want else if good (1 - want) then some (1 - want) else none } }

/-- A warm reset: every domain but PD37 to PD39. -/
def warmReset (s : State) : State :=
  let kept := keepFrames s
  let hold := fbit GLB_PKG_STATUS_THERMTRIP s || s.clk.pd38 != 0
  let s := linksFall s
  let s := volatileLost s
  let s := { s with
    regs := s.regs.filter (fun e => warmKeeps e.1),
    comps := [],
    img := { slotA := s.img.slotA, slotB := s.img.slotB, clockPlan := s.img.clockPlan, metering := s.img.metering, kept },
    pan := { s.pan with strikes := [], server := [] },
    sec := { s.sec with sessions := 0 },
    mgt := { s.mgt with fwUp := false, stopped := false, postOk := false, believes := 0, resuming := 0, election := {}, hashing := [], sealing := [], asserts := [], sweep := none } }
  s |> fsetb GLB_PKG_STATUS_FAULT hold |> startLock

/-- Every mark of the held key slots after a cold reset: none is in use (R483). -/
def holdKeys (s : State) : State := { s with sec := { s.sec with keys := s.sec.keys.map (fun k => (k.1, { k.2 with held := true })) } }

/-- A cold reset (R14): every field but those of the Beryl and lifetime-record blocks; harvests never survive it (R107). -/
def coldReset (s : State) : State :=
  let kept := keepFrames s
  let s := linksFall s
  let s := volatileLost s
  { s with
    regs := s.regs.filter (fun e => levelKey e.1 || inBrl (e.1 / 8) || inLrc (e.1 / 8)),
    comps := [],
    hv := {},
    mem := { s.mem with advice := [], heat := [], farTurn := 0 },
    img := { slotA := s.img.slotA, slotB := s.img.slotB, metering := s.img.metering, kept },
    pan := {},
    clk := {},
    pwr := { seq := s.pwr.seq, railsOn := s.pwr.railsOn, railsGood := s.pwr.railsGood, seqFails := s.pwr.seqFails, aon := s.pwr.aon },
    sec := { s.sec with sessions := 0, nonces := [], chain := [], tap := false },
    mgt := { onyxFw := s.mgt.onyxFw, berylFw := s.mgt.berylFw, seals := s.mgt.seals } }
  |> holdKeys

/-- PD37 loses power: every key and what they protected are lost (R448, R483). -/
def lose37 (s : State) : State :=
  { s with
    mem := { s.mem with bytes := [], written := [], bittern := [], tracked := [], advice := [], heat := [] },
    hv := {},
    img := { s.img with kept := [] },
    sec := { s.sec with keys := [], mdk := false },
    mgt := { s.mgt with seals := [] } }
  |> fset SEC_KEY_LIVE 0

/-- COLD_RESET: the deassertion of COLD_RST_N; the part stays in reset while PWRGD_AON is low (R442). -/
def execColdReset (s : State) := ok (if s.pwr.aon then coldReset s else s)

end Sys2Proof.Machine
end

