-- ==== Sys2Proof/Machine/Pan.lean ====
section
/-! DEFINITION. Pans (chapters 9 and 19): pieces and contexts, spare pans and adoption, replay, suspect pans, self-test. -/

namespace Sys2Proof.Machine

/-! ### Which pan serves a vault (R19, R21, R231 to R235) -/

/-- The tile of a logical pan, and its vault within it. -/
def panTile (p : Nat) : Nat := p / 128
/-- See `panTile`. -/
def panVault (p : Nat) : Nat := p % 128
/-- The pan of the partner tile with the same place. -/
def partnerPan (p : Nat) : Nat := (panTile p ^^^ 1) * 128 + panVault p

/-- SP0 or SP1 of a tile: the vault it serves, and whether it has failed. -/
def spVault (t i : Nat) : Fld := if i = 0 then TIL_PAN_SPARE_SP0_VAULT t else TIL_PAN_SPARE_SP1_VAULT t
/-- See `spVault`. -/
def spBad (t i : Nat) : Fld := if i = 0 then TIL_PAN_SPARE_SP0_BAD t else TIL_PAN_SPARE_SP1_BAD t

/-- The physical position that serves a logical pan (R19). -/
def physPan (p : Nat) (s : State) : Nat :=
  let t := panTile p
  if fget (spVault t 0) s = panVault p then 128 else if fget (spVault t 1) s = panVault p then 129 else panVault p

/-- The key of a physical position: tile·130 + position. -/
def physKey (p : Nat) (s : State) : Nat := panTile p * 130 + physPan p s

/-- A pan of the partner tile serves this vault for good (R21, R235). -/
def adoptedFor (p : Nat) (s : State) : Option Nat :=
  if fbit (TIL_PAN_SPARE_RETIRED (panTile p)) s then some (partnerPan p) else kget? s.pan.server p

/-- The pan that a piece of vault `p` goes to now, and whether by adoption (R231, R233). -/
def servingPan (p : Nat) (s : State) : Nat × Bool :=
  match adoptedFor p s with
  | some q => (q, true)
  | none =>
    let away := fbit (TIL_ADOPT_SELFTEST (panTile p)) s || (kget? s.pan.subst p).isSome
    if away && !fbit (TIL_PAN_SPARE_RETIRED (panTile p ^^^ 1)) s then (partnerPan p, true) else (p, false)

/-- Pans of a tile take no work: self-test, or the pan is being substituted. -/
def panClosed (q : Nat) (s : State) : Bool := fbit (TIL_ADOPT_SELFTEST (panTile q)) s || (kget? s.pan.subst q).isSome

/-! ### Pieces (R226, R228, R229, R233) -/

/-- Change a piece. -/
def modPiece (id : Nat) (f : Piece → Piece) (s : State) : State :=
  { s with pan := { s.pan with pieces := s.pan.pieces.map (fun p => if p.id == id then f p else p) } }

/-- A piece. -/
def pieceOf (id : Nat) (s : State) : Option Piece := s.pan.pieces.find? (fun p => p.id == id)

/-- The recipe of a piece's descriptor. -/
def pieceRecipe (p : Piece) (s : State) : List (BitVec 3072) := ((descOf p.desc s).map (·.recipe)).getD []

/-- Pan `q` has a context, a recipe slot and an undo slot for a piece: 16 contexts, at most 4 for adopted pieces; 8 distinct
recipes; 4 undo slots. -/
def hasRoom (q : Nat) (p : Piece) (adopted : Bool) (s : State) : Bool :=
  let here := s.pan.pieces.filter (fun x => x.on == q && !x.waiting)
  let rcp := (here.map (pieceRecipe · s)).filter (fun r => !r.isEmpty)
  let mine := pieceRecipe p s
  here.length < 16 && (!adopted || (here.filter (·.adopted)).length < 4)
    && (mine.isEmpty || rcp.contains mine || rcp.eraseDups.length < 8)
    && (p.lines.isEmpty || (here.filter (fun x => !x.lines.isEmpty)).length < 4)

/-- Bring ADOPTING up to date. -/
def showAdopting (s : State) : State :=
  each (List.range 32) (fun t s =>
    fsetb (TIL_ADOPT_ADOPTING t) (s.pan.pieces.any (fun p => p.adopted && !p.waiting && panTile p.on == t)) s) s

/-- Issue up to 8 of a piece's lower-tier accesses; it parks while any is outstanding (R229). -/
def issueAccs (id : Nat) (s : State) : State :=
  match pieceOf id s with
  | none => s
  | some p =>
    let slot := ((descOf p.desc s).map (·.slot)).getD 0
    let now := p.accs.take 8
    let s := each now (fun t s =>
      let n := s.coh.births
      { s with coh := { s.coh with births := n + 1 },
               mem := { s.mem with tier := s.mem.tier ++ [{ id := n, tier := t, slot, desc := p.desc, piece := id }] } }) s
    modPiece id (fun p => { p with accs := p.accs.drop 8, parked := !now.isEmpty }) s

/-- Try to give a waiting piece a context. Work wakes a gated tile, and cancels a gating that has not ended (R423). -/
def tryPiece (id : Nat) (s : State) : State :=
  match pieceOf id s with
  | none => s
  | some p =>
    if !p.waiting then s else
    let (q, adopted) := servingPan p.pan s
    let s := wakeTile (panTile q) s
    let s := modPiece id (fun p => { p with on := q, adopted }) s
    if fget (TIL_STATE_POWER (panTile q)) s = 1 || fget (TIL_STATE_POWER (panTile q)) s = 0 then
      modPiece id (fun p => { p with woke := true }) s
    else if panClosed q s || !hasRoom q p adopted s then s
    else
      let s := s |> modPiece id (fun p => { p with waiting := false })
        |> onlyIf adopted (finc (TIL_ADOPT_CNT (panTile p.pan)))
      let s := if p.woke then
          let (n, s) := takeFree 32 s
          addStall p.desc 8 n.toNat s
        else s
      let s := if adopted then
          let (n, s) := takeFree 32 s
          addStall p.desc 7 n.toNat s
        else s
      s |> issueAccs id |> showAdopting

/-- Give every waiting piece a try, oldest first. -/
def dispatchPieces (s : State) : State := each (s.pan.pieces.filter (·.waiting)) (fun p => tryPiece p.id) s

/-- PIECE_START: a piece of a running descriptor is handed to its pan. -/
def pieceStart (d pan : Nat) (lines : List Nat) (accs : List Tier) (s : State) : State :=
  match descOf d s with
  | none => s
  | some x =>
    if x.phase != .running && x.phase != .waiting then s else
    let id := s.pan.next + 1
    let p : Piece := { id, desc := d, pan, on := pan, waiting := true, lines, accs }
    tryPiece id { s with pan := { s.pan with next := id, pieces := s.pan.pieces ++ [p] } }

/-- THREAD_READY: nothing that the thread waits on is outstanding. -/
def threadReady (id : Nat) (s : State) : State :=
  match pieceOf id s with
  | none => s
  | some p => if !p.parked || s.mem.tier.any (fun a => a.piece == id) then s else issueAccs id s

/-- Write back what a software composition's pans hold dirty (R142). -/
def flushDirty (slot : Nat) (s : State) : State :=
  if !isSoftware slot s then s else
  let mine := s.coh.copies.filter (fun e => e.1 / 2 ^ 50 % 64 == slot && e.2.st == .s && e.2.dirty != 0)
  each mine (fun e s =>
    let t := Fin.ofNat 32 (e.1 / 2 ^ 56)
    let line := e.1 % 2 ^ 50
    s |> writeBackDirty t slot line |> setCopy t slot line { e.2 with dirty := 0 }) s

/-- A piece is over: its context goes to the next. -/
def endPiece (id : Nat) (s : State) : State :=
  { s with pan := { s.pan with pieces := s.pan.pieces.filter (fun p => p.id != id) } } |> dispatchPieces |> showAdopting

/-- BLOCK_COMMIT (R246): the undo slot is freed; after the last block the context too. -/
def blockCommit (id : Nat) (last : Bool) (s : State) : State :=
  match pieceOf id s with
  | none => s
  | some p =>
    if p.waiting || p.parked || p.struck then s else
    let s := s |> flushDirty (((descOf p.desc s).map (·.slot)).getD 64) |> modPiece id (fun p => { p with lines := [] })
    if last then endPiece id s else dispatchPieces s

/-! ### Replay (R455, R456) -/

/-- A descriptor's replays are exhausted: its pieces go, its status is 0x30. -/
def exhausted (d : Nat) (s : State) : State :=
  let s := { s with pan := { s.pan with pieces := s.pan.pieces.filter (fun p => p.desc != d),
                                        struck := kkeep s.pan.struck (fun k => k / 2 ^ 32 != d),
                                        errors := kkeep s.pan.errors (fun k => k / 2 ^ 32 != d) } }
  s |> finc (RAS_ERR_CNT 7) |> modDesc d (fun x => { x with phase := .finished, status := 0x30 }) |> dispatchPieces

/-- One replay is counted, for the part and for the descriptor. -/
def countReplay (d : Nat) (s : State) : State :=
  s |> finc (RAS_ERR_CNT 6) |> modDesc d (fun x => { x with replays := x.replays + 1 })

/-- The pieces on pan `q` are handed over: restored, and replayed where they next run (R231). -/
def handOver (q : Nat) (s : State) : State :=
  let mine := s.pan.pieces.filter (fun p => p.on == q && !p.waiting)
  let ids := mine.map (·.id)
  let s := { s with mem := { s.mem with tier := s.mem.tier.filter (fun a => !ids.contains a.piece || a.piece == 0) } }
  let s := each mine (fun p s => s |> countReplay p.desc
    |> modPiece p.id (fun p => { p with waiting := true, parked := false, adopted := false, struck := false })) s
  dispatchPieces s

/-! ### Substitution (R21, R231, R235) -/

/-- Keep a tile's spare assignment in the lifetime record (R528). -/
def recordSpares (t : Nat) (s : State) : State :=
  let flags := fget (TIL_PAN_SPARE_SP0_BAD t) s + 2 * fget (TIL_PAN_SPARE_SP1_BAD t) s + 4 * fget (TIL_PAN_SPARE_PERM t) s
    + 8 * fget (TIL_PAN_SPARE_RETIRED t) s
  let row := [fget (TIL_PAN_SPARE_SP0_VAULT t) s, fget (TIL_PAN_SPARE_SP1_VAULT t) s, flags, fget (TIL_PAN_SPARE_PERM_VAULT t) s]
  modRecord (fun c => { c with spares := kput c.spares t row }) s

/-- A physical position has failed for good. -/
def markFailed (key : Nat) (s : State) : State :=
  { s with pan := { s.pan with failed := kput s.pan.failed key () } }
    |> modRecord (fun c => { c with pans := kput c.pans key (kgetD c.pans key 0 % 4 + 4) })

/-- Fields of entry `i` of TIL_PERM of tile `t`. -/
def permVault (t i : Nat) : Fld :=
  let f := TIL_PERM_VAULT0 t (i / 8)
  ⟨f.key + 8 * (i % 8), 7, 0⟩
/-- See `permVault`. -/
def permValid (t i : Nat) : Fld :=
  let f := TIL_PERM_VAULT0 t (i / 8)
  ⟨f.key + 8 * (i % 8) + 7, 1, 0⟩

/-- Vaults that a pan of the partner tile serves for good. -/
def adoptedBy (q : Nat) (s : State) : Nat := (s.pan.server.filter (fun e => e.2 == q)).length

/-- The pan of tile `u` with the fewest adopted vaults, the lowest first (R234). -/
def leastLoaded (u : Nat) (s : State) : Nat :=
  (List.range 128).foldl (fun b i => if adoptedBy (u * 128 + i) s < adoptedBy b s then u * 128 + i else b) (u * 128)

/-- Retire a tile (R235). -/
def retireTile (t : Nat) (s : State) : State :=
  let s := s |> fset (TIL_PAN_SPARE_RETIRED t) 1
  let s := each (List.range 128) (fun i => handOver (t * 128 + i)) s
  let s := s |> purgeTile t |> tileOff t |> recordSpares t |> eventD 0x0041 0 0xFFFF
  let s := { s with pan := { s.pan with subst := kkeep s.pan.subst (fun p => panTile p != t) } }
  let s := if fbit (TIL_PAN_SPARE_RETIRED (t ^^^ 1)) s then fatalInternal s else s
  dispatchPieces s

/-- Adopt a vault permanently (R21); a seventeenth retires the tile. -/
def adoptPan (p : Nat) (s : State) : State :=
  let t := panTile p
  let l := kgetD s.lr.cur.perm t []
  if l.contains (panVault p) then s
  else if l.length ≥ 16 then retireTile t s
  else
    let q := leastLoaded (t ^^^ 1) s
    let s := { s with pan := { s.pan with server := kput s.pan.server p q, subst := kdel s.pan.subst p, strikes := kdel s.pan.strikes p } }
    let s := s |> fset (permVault t l.length) (panVault p) |> fset (permValid t l.length) 1
    let s := if l.isEmpty then s |> fset (TIL_PAN_SPARE_PERM t) 1 |> fset (TIL_PAN_SPARE_PERM_VAULT t) (panVault p) else s
    s |> modRecord (fun c => { c with perm := kput c.perm t (l ++ [panVault p]) }) |> recordSpares t
      |> eventF 0x0041 0 |> handOver p |> dispatchPieces

/-- A strike or a substitution abandons the margin sweep of its tile (R531). -/
def dropSweep (t : Nat) (s : State) : State :=
  { s with mgt := { s.mgt with sweep := s.mgt.sweep.map (fun w => { w with now := w.now.filter (fun e => e.1 != t) }) } }

/-- The position that serves pan `p` has failed; a spare that did is bad. -/
def losePosition (p : Nat) (s : State) : State :=
  let t := panTile p
  let pos := physPan p s
  let s := markFailed (t * 130 + pos) s
  let s := if pos < 128 then s else s |> fset (spVault t (pos - 128)) 0xFF |> fset (spBad t (pos - 128)) 1 |> recordSpares t
  { s with pan := { s.pan with strikes := kdel s.pan.strikes p } } |> dropSweep t

/-- A free spare of a tile. -/
def freeSpare (t : Nat) (s : State) : Option Nat :=
  [0, 1].find? (fun i => fget (spVault t i) s == 0xFF && !fbit (spBad t i) s
    && !s.pan.subst.any (fun e => panTile e.1 == t && e.2 == 128 + i))

/-- Take the next free spare for pan `p`, or adopt its vault for good. -/
def nextSpare (p : Nat) (s : State) : State :=
  match freeSpare (panTile p) s with
  | some i => { s with pan := { s.pan with subst := kput s.pan.subst p (128 + i) } } |> handOver p
  | none => adoptPan p { s with pan := { s.pan with subst := kdel s.pan.subst p } }

/-- Steps 1 and 2 of a substitution (R231). -/
def substitute (p : Nat) (s : State) : State :=
  if (kget? s.pan.subst p).isSome || (adoptedFor p s).isSome then s else s |> losePosition p |> nextSpare p

/-- The vault switch moves to spare `pos` (R231, steps 3 and 4). -/
def switchTo (p pos : Nat) (s : State) : State :=
  let t := panTile p
  { s with pan := { s.pan with subst := kdel s.pan.subst p, vstep := kdel s.pan.vstep (t * 130 + pos) } }
    |> fset (spVault t (pos - 128)) (panVault p) |> fset (TIL_PAN_SPARE_SUBST_STK t) 1 |> finc (TIL_SUBST_CNT t)
    |> recordSpares t |> logEvent 0x03 p pos |> eventU 0x0040 0 p |> dispatchPieces |> showAdopting

/-- SPARE_SWITCHED: a spare that fails its self-check is bad, and the next is taken. -/
def spareSwitched (p : Nat) (good : Bool) (s : State) : State :=
  match kget? s.pan.subst p with
  | none => s
  | some pos =>
    if good then switchTo p pos s
    else s |> fset (spBad (panTile p) (pos - 128)) 1 |> markFailed (panTile p * 130 + pos) |> recordSpares (panTile p) |> nextSpare p

/-! ### Suspect pans (R457 to R460) -/

/-- Bring RAS_PAN_INFO up to date. -/
def showPan (s : State) : State :=
  let p := fget RAS_PAN_SEL_PAN s
  let n := kgetD s.pan.strikes p 0
  s |> fset RAS_PAN_INFO_VSTEP (kgetD s.pan.vstep (physKey p s) 0) |> fset RAS_PAN_INFO_STRIKES n
    |> fset RAS_PAN_INFO_TILE_DROP (kgetD s.pan.drop (panTile p) 0) |> fset RAS_PAN_INFO_PHYS (physPan p s)
    |> fsetb RAS_PAN_INFO_SUSPECT (n > 0)

/-- Set the voltage step of the position that serves a pan, here and in the record. -/
def setVstep (p v : Nat) (s : State) : State :=
  let k := physKey p s
  { s with pan := { s.pan with vstep := kset s.pan.vstep k v 0 } }
    |> modRecord (fun c => { c with pans := kset c.pans k (kgetD c.pans k 0 / 4 * 4 + v) 0 })

/-- Set a tile's clock drop, here and in the record. -/
def setDrop (t v : Nat) (s : State) : State :=
  { s with pan := { s.pan with drop := kset s.pan.drop t v 0 } } |> modRecord (fun c => { c with drop := kset c.drop t v 0 })
    |> showCodes

/-- The suspect action of a strike (R459). -/
def suspectAction (p : Nat) (s : State) : State :=
  let v := kgetD s.pan.vstep (physKey p s) 0
  let d := kgetD s.pan.drop (panTile p) 0
  if v ≥ 3 && d ≥ 8 then substitute p s
  else if (fbit RAS_CTL_SUSPECT_POLICY s && d < 8) || v ≥ 3 then setDrop (panTile p) (d + 1) s
  else setVstep p (v + 1) s

/-- The number of an error class in a STRIKE entry. -/
def classCode : ErrClass → Nat
  | .scratch => 1 | .lineCache _ => 2 | .context => 3 | .vector => 4 | .accumulator => 5 | .hash => 6 | .noc => 7 | .link => 8
  | .inconsistent => 9

/-- The class is attributed to a pan (R457). -/
def strikesPan : ErrClass → Bool
  | .noc => false | .link => false | .inconsistent => false | _ => true

/-- A strike on a pan (R457, R460). A sweep of its tile is abandoned (R531). -/
def strike (p : Nat) (cls : ErrClass) (temp : Nat) (s : State) : State :=
  let n := kgetD s.pan.strikes p 0 + 1
  let s := dropSweep (panTile p) s
  let s := s |> finc (RAS_ERR_CNT 8)
    |> logEvent 0x02 p (classCode cls + temp * 2 ^ 8 + kgetD s.pan.vstep (physKey p s) 0 * 2 ^ 16 + kgetD s.pan.drop (panTile p) 0 * 2 ^ 24)
  if (kget? s.pan.subst p).isSome then { s with pan := { s.pan with strikes := kput s.pan.strikes p (min 2 n) } }
  else if n ≥ 3 then substitute p s
  else { s with pan := { s.pan with strikes := kput s.pan.strikes p n } } |> suspectAction p

/-- Count what was detected (R449). -/
def countError (cls : ErrClass) (p : Nat) (s : State) : State :=
  match cls with
  | .scratch | .lineCache _ => s |> finc (RAS_ERR_CNT 3) |> fset (TIL_ECC_ECC_UE_STK (panTile p)) 1
  | .context => finc (RAS_ERR_CNT 3) s
  | .vector | .accumulator | .hash => finc (RAS_ERR_CNT 4) s
  | .noc => finc (RAS_ERR_CNT 5) s
  | _ => s

/-- TRANSIENT_ERROR (R455, R456). -/
def transientError (d unit : Nat) (cls : ErrClass) (p temp : Nat) (s : State) : State :=
  match descOf d s with
  | none => s
  | some x =>
    if x.phase == .skipped || (!x.started && !x.early) || workDone x s then s else
    let key := d * 2 ^ 32 + unit
    let n := kgetD s.pan.errors key 0 + 1
    let s := countError cls p s
    let s := match cls with | .lineCache pa => markLine x.slot (pa.toNat / 64) s | _ => s
    let s := { s with pan := { s.pan with errors := kput s.pan.errors key n, struck := kput s.pan.struck key () } }
    let s := each (s.pan.pieces.filter (fun q => q.desc == d && q.on == p && !q.waiting)) (fun q => modPiece q.id (fun q => { q with struck := true })) s
    let s := if n ≥ 3 then exhausted d s else s
    (if strikesPan cls then strike p cls temp s else s) |> showPan

/-- REPLAY (R456): the unit runs again from its retained inputs. -/
def replayUnit (d unit : Nat) (s : State) : State :=
  let key := d * 2 ^ 32 + unit
  if !kmem s.pan.struck key then s else
  let s := { s with pan := { s.pan with struck := kdel s.pan.struck key,
                                        pieces := s.pan.pieces.map (fun p => if p.desc == d then { p with struck := false } else p) } }
  let s := countReplay d s
  match s.engs.colls.find? (fun e => e.2.desc == some d) with
  | some e => rearmPart e.2.slot e.2.collId unit s
  | none => s

/-- PAN_STALL_TIMEOUT (R232): the pan is not readable. -/
def panStall (p : Nat) (s : State) : State :=
  let mine := s.pan.pieces.filter (fun x => x.on == p && !x.waiting)
  if mine.isEmpty then s else
  let bad := mine.filter (fun x => !x.lines.isEmpty)
  let s := each bad (fun x s =>
    match descOf x.desc s with
    | none => s
    | some d =>
      let s := each x.lines (fun l s =>
        match (compAt d.slot s).bind (fun c => physOf c (l * 64) s) with
        | some a => setBittern d.slot (a / 64) true s
        | none => s) s
      if d.status = 0x30 then s else exhausted x.desc s) s
  s |> substitute p |> handOver p |> showPan

/-- STRIKE_EXPIRY (R458). -/
def strikeExpiry (p : Nat) (s : State) : State :=
  { s with pan := { s.pan with strikes := kset s.pan.strikes p (kgetD s.pan.strikes p 0 - 1) 0 } } |> showPan

/-- PAN_CLEAR (R460). -/
def panClear (p : Nat) (s : State) : State :=
  { s with pan := { s.pan with strikes := kdel s.pan.strikes p } } |> setVstep p 0 |> setDrop (panTile p) 0 |> showPan

/-! ### Self-test (R461) -/

/-- A tile is in a margin-sweep slot. -/
def inSweep (t : Nat) (s : State) : Bool := s.mgt.sweep.any (fun w => w.now.any (fun e => e.1 == t))

/-- A tile's pans are in self-test, in a sweep slot or in substitution. -/
def tileInTest (t : Nat) (s : State) : Bool :=
  fbit (TIL_ADOPT_SELFTEST t) s || inSweep t s || s.pan.subst.any (fun e => panTile e.1 == t)

/-- SELFTEST_START. -/
def selftestStart (t : Nat) (s : State) : State :=
  if fbit (TIL_PAN_SPARE_RETIRED t) s || tileInTest t s || tileInTest (t ^^^ 1) s || !domainOn 36 s then s else
  let s := fset (TIL_ADOPT_SELFTEST t) 1 s
  let busy := (s.pan.pieces.filter (fun p => panTile p.on == t && !p.waiting)).map (·.on)
  each busy.eraseDups handOver s |> dispatchPieces

/-- SELFTEST_END: a failing pan is substituted at once. -/
def selftestEnd (t : Nat) (failing : List Nat) (s : State) : State :=
  if !fbit (TIL_ADOPT_SELFTEST t) s then s else
  s |> fset (TIL_ADOPT_SELFTEST t) 0 |> each failing (fun v => substitute (t * 128 + v)) |> dispatchPieces |> showPan

/-- TILE_WAKE_DONE (R424): the first pieces are dispatched. -/
def tileWoke (t : Nat) (s : State) : State := s |> wokeTile t |> dispatchPieces

/-- PIECE_START (R228). -/
def execPieceStart (d : Nat) (pan : BitVec 12) (lines : List Nat) (accs : List Tier) (s : State) :=
  ok (pieceStart d pan.toNat lines accs s)
/-- THREAD_READY (R229). -/
def execThreadReady (piece : Nat) (s : State) := ok (threadReady piece s)
/-- BLOCK_COMMIT (R246). -/
def execBlockCommit (piece : Nat) (last : Bool) (s : State) := ok (blockCommit piece last s)
/-- TRANSIENT_ERROR (R455). -/
def execTransientError (d unit : Nat) (cls : ErrClass) (pan : BitVec 12) (temp : BitVec 8) (s : State) :=
  ok (transientError d unit cls pan.toNat temp.toNat s)
/-- REPLAY (R456). -/
def execReplay (d unit : Nat) (s : State) := ok (replayUnit d unit s)
/-- SPARE_SWITCHED (R231). -/
def execSpareSwitched (pan : BitVec 12) (good : Bool) (s : State) := ok (showPan (spareSwitched pan.toNat good s))
/-- PAN_STALL_TIMEOUT (R232). -/
def execPanStallTimeout (pan : BitVec 12) (s : State) := ok (panStall pan.toNat s)
/-- STRIKE_EXPIRY (R458). -/
def execStrikeExpiry (pan : BitVec 12) (s : State) := ok (strikeExpiry pan.toNat s)
/-- SELFTEST_START (R461). -/
def execSelftestStart (t : Fin 32) (s : State) := ok (selftestStart t s)
/-- SELFTEST_END (R461). -/
def execSelftestEnd (t : Fin 32) (failing : List (Fin 128)) (s : State) := ok (selftestEnd t (failing.map (·.val)) s)
/-- TILE_WAKE_DONE (R424). -/
def execTileWakeDone (t : Fin 32) (s : State) := ok (tileWoke t s)

end Sys2Proof.Machine
end

