-- ==== Sys2Proof/Machine/Attend.lean ====
section
/-! DEFINITION. The Attend engine (chapter 14): one step of attention over a KV cache, exact or FAST. -/

namespace Sys2Proof.Machine

/-! ### The cache (R355, R356) -/

/-- The address of chunk `j` of a row of block `n`: KV head `h` (HKV more for a value row), token `t`. -/
def atChunk (r : BitVec 1024) (n h t j : Nat) : Nat :=
  atKvVa r + n / atQ r * atSlab r + ((h * atBt r + t) * atC r + j) * 2 ^ 20 + n % atQ r * atCw r

/-- Read the chunks of a row from `j` on: `left` bytes of it remain. -/
def rowChunks (r : BitVec 1024) (n h t : Nat) : Nat → Nat → Nat → Eng (List (Byte × Bool))
  | 0, _, _ => pure []
  | f + 1, j, left => do
    let k := min left (atCw r)
    let bs ← readMarked (atChunk r n h t j) k
    return bs ++ (← rowChunks r n h t f (j + 1) (left - k))

/-- A row: its elements as binary32, their flags, and whether any of its lines was bittern. -/
structure KvRow where
  v : List Nat := []
  flags : Nat := 0
  bit : Bool := false

/-- Read a row (R257, R258). -/
def readKv (r : BitVec 1024) (n h t : Nat) : Eng KvRow := do
  let bs ← rowChunks r n h t (atC r) 0 (atRb r)
  engBytes (atRb r)
  let es := sliceElems (fmtBits (atKv r)) (atDh r) 0 bs
  let vs := if isMx (atKv r) then
      let sc := bs.drop (atElemBytes r)
      es.mapIdx (fun i e => mxDecode (atKv r) ((sc.getD (i / 32) (0, false)).1).toNat e.1)
    else es.map (fun e => readElem (atKv r) e.1)
  return { v := vs.map (·.1), flags := vs.foldl (fun m v => m ||| v.2) 0, bit := bs.any (·.2) }

/-- A block that a sequence uses: its entry's place, its number, and the tokens of it that are attended. -/
structure BlockU where
  n : Nat
  lo : Nat
  hi : Nat
  /-- The logical pan that processes it (R364). -/
  pan : Nat

/-- The logical pan whose vault holds the byte at an address, when it lies in this Slosin's near store. -/
def panOfVa (runs : List Run) (c : Comp) (s : State) (va : Nat) : Option Nat :=
  match runAt runs va with
  | some (.pool a, _) => (physOf c a s).bind (fun p => if p < farBase then some (vaultOf p) else none)
  | some (.view m h p, _) =>
    if c.members[m]? == some (myNode s) then
      (s.hv.views.find? (fun v => v.slot == c.slot && v.vslot == h % 4096)).bind (fun v =>
        (physOf c (v.base + p * 4096 + va % 4096) s).bind (fun q => if q < farBase then some (vaultOf q) else none))
    else none
  | _ => none

/-- The pan of a block: the vault that holds it, else the vault of the output row of the sequence's head 0. -/
def blockPan (r : BitVec 1024) (q n : Nat) : Eng Nat := do
  let e ← get
  let own := panOfVa e.runs e.c e.st (atChunk r n 0 0 0)
  let out := panOfVa e.runs e.c e.st (atOutVa r + q * atHq r * atOrow r)
  return own.getD (out.getD 0)

/-- Count a drop of a cause. -/
def atDrop (cause : Nat) : Eng Unit := do
  engDrop 1
  engMod (finc (ENG_ATT_DROP_CNT cause))

/-- The blocks of the tokens `start` to `len - 1`, from block-list place `i` on: those named, and whether an entry was
bittern. -/
def seqBlocks (r : BitVec 1024) (q idx start len : Nat) : Nat → Nat → Eng (List BlockU × Bool)
  | 0, _ => pure ([], false)
  | f + 1, i => do
    if i * atBt r ≥ len then return ([], false)
    let (n, b) ← readNum (atBtabVa r + 4 * (idx + i)) 4
    let l : List BlockU ← if n ≥ atBlocks r then do
        atDrop 1
        pure []
      else do
        engMod (finc (ENG_ATT_EVENT_CNT 2))
        let pan ← blockPan r q n
        pure [BlockU.mk n (start - i * atBt r) (min (atBt r) (len - i * atBt r)) pan]
    let (t, d) ← seqBlocks r q idx start len f (i + 1)
    return (l ++ t, b || d)

/-! ### Scores (R360) -/

/-- A token of a KV head: its pan, its key row and its value row. -/
structure Tok where
  pan : Nat
  key : KvRow
  val : KvRow

/-- Read the tokens of a KV head in blocks. -/
def headToks (r : BitVec 1024) (h : Nat) : List BlockU → Eng (List Tok)
  | [] => pure []
  | b :: rest => do
    let mine ← toks b (b.hi - b.lo) b.lo
    return mine ++ (← headToks r h rest)
where
  /-- The tokens of one block from position `t` on. -/
  toks (b : BlockU) : Nat → Nat → Eng (List Tok)
    | 0, _ => pure []
    | n + 1, t => do
      let k ← readKv r b.n h t
      let v ← readKv r b.n (atHkv r + h) t
      return Tok.mk b.pan k v :: (← toks b n (t + 1))

/-- One level of the tree: neighbours are added. -/
def treeLevel : List (Nat × Nat) → List (Nat × Nat)
  | a :: b :: t =>
    let (x, f) := fadd32 a.1 b.1
    (x, a.2 ||| b.2 ||| f) :: treeLevel t
  | l => l

/-- The fixed pairwise tree over `2^n` values. -/
def treeSum : Nat → List (Nat × Nat) → Nat × Nat
  | 0, l => l.headD (0, 0)
  | n + 1, l => treeSum n (treeLevel l)

/-- The least `k` with `n ≤ 2^k`. -/
def log2Up (n : Nat) : Nat := ((List.range 64).find? (fun k => n ≤ 2 ^ k)).getD 64

/-- The score of a key row against a query, and its flags. -/
def atScore (scale : Nat) (q k : List Nat) : Nat × Nat :=
  let ps := (q.zip k).map (fun p => fmul32 p.1 p.2)
  let n := log2Up ps.length
  let (x, f) := treeSum n (ps ++ List.replicate (2 ^ n - ps.length) (0, 0))
  let (y, g) := fmul32 x scale
  (y, f ||| g)

/-- The value is a NaN or an infinity. -/
def notFinite (v : Nat) : Bool := match fdec b32 v with | .fin .. => false | _ => true

/-! ### A head (R361 to R363) -/

/-- What a head delivers: its output elements as bits, M and L, and flags. -/
structure HeadO where
  out : List Nat
  m : Nat
  l : Nat
  flags : Nat

/-- An exact quotient of two exact sums, rounded once. -/
def quotDeliver (code mode rnd : Nat) (a b : Accum) : Nat × Nat :=
  match accValue a, accValue b, fmtOf code with
  | (.fin neg m e, i), (.fin _ n g, _), some f =>
    if m = 0 || n = 0 then accDeliver code mode rnd a else
    let q := m * 2 ^ 400 / n
    let (x, fl) := roundMag f mode rnd neg q (e - g - 400) (m * 2 ^ 400 % n ≠ 0)
    (x, fl ||| i ||| (match fdec f x with | .fin .. => 0 | _ => fNF))
  | _, _, _ => accDeliver code mode rnd a

/-- The draw of output element `e` of head `h` of sequence `q`. -/
def atDraw (r : BitVec 1024) (qh e : Nat) : Nat := draw (atSeed r) (atStep r) (qh * atDh r + e) 0x60

/-- EXACT mode over scored tokens: score and value row. -/
def headExact (r : BitVec 1024) (qh : Nat) (ts : List (Nat × List Nat)) : HeadO :=
  let (m, f0) := ts.foldl (fun (m, f) t =>
    let (x, g) := fmax32 m t.1
    (x, f ||| g)) ((ts.headD (0, [])).1, 0)
  let (l, ns, f1) := ts.foldl (fun (l, ns, f) t =>
    let (d, g) := fsub32 t.1 m
    let (w, h) := fexp32 d
    let ps := t.2.map (fun v => fmul32 w v)
    (accTerm w false l, (ns.zip ps).map (fun (a, p) => accTerm p.1 false a), ps.foldl (fun x p => x ||| p.2) (f ||| g ||| h)))
    (({} : Accum), List.replicate (atDh r) ({} : Accum), f0)
  let out := ns.mapIdx (fun e a => quotDeliver (atOut r) (atRnd r) (atDraw r qh e) a l)
  let (lb, f2) := if atLse r then accDeliver 0x01 0 0 l else (0, 0)
  { out := out.map (·.1), m, l := lb, flags := out.foldl (fun x o => x ||| o.2) (f1 ||| f2) }

/-- The running softmax of a logical pan. -/
structure Online where
  m : Nat := 0xFF800000
  l : Nat := 0
  a : List Nat
  flags : Nat := 0

/-- Take one token. -/
def Online.tok (x : Online) (t : Nat × List Nat) : Online :=
  let x := if ltV (fdec b32 x.m) (fdec b32 t.1) then
      let (d, f0) := fsub32 x.m t.1
      let (c, f1) := fexp32 d
      let (l, f2) := fmul32 x.l c
      let a := x.a.map (fun v => fmul32 v c)
      { m := t.1, l, a := a.map (·.1), flags := a.foldl (fun s v => s ||| v.2) (x.flags ||| f0 ||| f1 ||| f2) }
    else x
  let (d, f0) := fsub32 t.1 x.m
  let (w, f1) := fexp32 d
  let (l, f2) := fadd32 x.l w
  let a := (t.2.zip x.a).map (fun p => ffma32 false w p.1 p.2)
  { x with l, a := a.map (·.1), flags := a.foldl (fun s v => s ||| v.2) (x.flags ||| f0 ||| f1 ||| f2) }

/-- Fold the partial of a later pan into a sum. -/
def Online.fold (x y : Online) : Online :=
  let (m, f0) := fmax32 x.m y.m
  let (dx, f1) := fsub32 x.m m
  let (cx, f2) := fexp32 dx
  let (dy, f3) := fsub32 y.m m
  let (cy, f4) := fexp32 dy
  let one (p q : Nat) : Nat × Nat :=
    let (s, g) := fmul32 p cx
    let (z, h) := ffma32 false q cy s
    (z, g ||| h)
  let (l, f5) := one x.l y.l
  let a := (x.a.zip y.a).map (fun p => one p.1 p.2)
  { m, l, a := a.map (·.1),
    flags := a.foldl (fun s v => s ||| v.2) (x.flags ||| y.flags ||| f0 ||| f1 ||| f2 ||| f3 ||| f4 ||| f5) }

/-- FAST mode over scored tokens: pan, score and value row, in block-table order. -/
def headFast (r : BitVec 1024) (qh : Nat) (ts : List (Nat × Nat × List Nat)) : HeadO :=
  let pans := (List.range 4096).filter (fun p => ts.any (fun t => t.1 == p))
  let parts := pans.map (fun p =>
    (ts.filter (fun t => t.1 == p)).foldl (fun x t => Online.tok x t.2) { a := List.replicate (atDh r) 0 })
  let x : Online := match parts with
    | [] => { a := List.replicate (atDh r) 0 }
    | p :: t => t.foldl Online.fold p
  let out := x.a.mapIdx (fun e v =>
    let (z, f) := fdiv32 v x.l
    let (b, g) := writeElem (atOut r) (atRnd r) (atDraw r qh e) z
    (b, f ||| g))
  { out := out.map (·.1), m := x.m, l := x.l, flags := out.foldl (fun s o => s ||| o.2) x.flags }

/-- The canonical NaN of an output format. -/
def atNan (r : BitVec 1024) : Nat := match fmtOf (atOut r) with | some f => f.nanBits | none => 0

/-- One head: scores, then its mode's sums. No token: zeros. A score that is not finite: NaN. -/
def headRun (r : BitVec 1024) (qh : Nat) (query : List Nat) (ts : List Tok) : Eng HeadO := do
  if ts.isEmpty then
    engMod (finc (ENG_ATT_EVENT_CNT 4))
    return { out := List.replicate (atDh r) 0, m := 0xFF800000, l := 0, flags := 0 }
  let ss := ts.map (fun t => (t, atScore (atScale r) query t.key.v))
  let fl := ss.foldl (fun m s => m ||| s.2.2 ||| s.1.key.flags ||| s.1.val.flags) 0
  if ss.any (fun s => notFinite s.2.1) then
    engMod (fun s => s |> finc (ENG_ATT_EVENT_CNT 5) |> fset ENG_ATT_STATUS_NONFINITE_STK 1)
    return { out := List.replicate (atDh r) (atNan r), m := qnan, l := qnan, flags := fl ||| fINV ||| fNF }
  let o := if atFast r then headFast r qh (ss.map (fun s => (s.1.pan, s.2.1, s.1.val.v)))
    else headExact r qh (ss.map (fun s => (s.2.1, s.1.val.v)))
  return { o with flags := o.flags ||| fl }

/-! ### A sequence (R365 to R367) -/

/-- Deliver the query heads of one KV head from `h` on. `bit`: what all of them depend on is bittern. -/
def headsGo (r : BitVec 1024) (q : Nat) (ts : List Tok) (bit : Bool) : Nat → Nat → Eng Nat
  | 0, _ => pure 0
  | n + 1, h => do
    let qh := q * atHq r + h
    let bs ← if ts.isEmpty then pure [] else readMarked (atQueryVa r + qh * atQrow r) (4 * atDh r)
    let bit' := bit || bs.any (·.2)
    engConsume bit'
    let o ← headRun r qh ((sliceElems 32 (atDh r) 0 bs).map (·.1)) ts
    writeMarked (atOutVa r + qh * atOrow r) (packElems (fmtBits (atOut r)) (o.out.map (fun v => (v, bit'))))
    if atLse r then writeVa (atLseVa r + 8 * qh) (natLe 4 o.m ++ natLe 4 o.l) bit'
    engMod (finc (ENG_ATT_EVENT_CNT 1))
    return o.flags ||| (← headsGo r q ts bit n (h + 1))

/-- The most query heads whose exact sums a pan holds at once, and how often a block's value rows are read (R364). -/
def atReread (r : BitVec 1024) : Nat :=
  let g := atHq r / atHkv r
  let most := 1360 / (atDh r + 1)
  if atFast r || g ≤ most then 1 else (g + most - 1) / most

/-- The KV heads of a sequence from `h` on. -/
def kvGo (r : BitVec 1024) (q : Nat) (bl : List BlockU) (bit : Bool) : Nat → Nat → Eng Nat
  | 0, _ => pure 0
  | n + 1, h => do
    let ts ← headToks r h bl
    engBytes (ts.length * atRb r * (atReread r - 1))
    let g := atHq r / atHkv r
    let b := bit || ts.any (fun t => t.key.bit || t.val.bit)
    let f ← headsGo r q ts b g (h * g)
    return f ||| (← kvGo r q bl bit n (h + 1))

/-- One sequence: the flags, and the blocks it attended. -/
def seqRun (r : BitVec 1024) (q : Nat) : Eng (Nat × List BlockU) := do
  let (bs, b) ← readVa (atSeqVa r + 16 * q) 16
  let f (o : Nat) : Nat := leNat ((bs.drop o).take 4)
  let idx := f 0
  let start := f 4
  let len := f 8
  engConsume b
  if idx + (len + atBt r - 1) / atBt r > atBtabLen r || f 12 ≠ 0 then
    atDrop 0
    return (← kvGo r q [] b (atHkv r) 0, [])
  let (bl, c) ← if start ≥ len then pure ([], false)
    else seqBlocks r q idx start len (len / atBt r + 1) (start / atBt r)
  engConsume c
  return (← kvGo r q bl (b || c) (atHkv r) 0, bl)

/-- Sequences from `q` on. -/
def seqsGo (r : BitVec 1024) : Nat → Nat → Eng (Nat × List BlockU)
  | 0, _ => pure (0, [])
  | n + 1, q => do
    let (f, b) ← seqRun r q
    let (g, c) ← seqsGo r n (q + 1)
    return (f ||| g, b ++ c)

/-- Pans that hold more than 8,192 scores read key rows again: how many rows is free within what the missing scores allow
(R364). -/
def recompute (r : BitVec 1024) (bl : List BlockU) : List Nat → Eng Unit
  | [] => pure ()
  | p :: t => do
    let toks := ((bl.filter (fun b => b.pan == p)).map (fun b => b.hi - b.lo)).sum
    let miss := toks * atHq r - 8192
    if miss > 0 then
      let g := atHq r / atHkv r
      let lo := (miss + g - 1) / g
      let hi := min miss (toks * atHkv r)
      let v ← engFree 32
      engBytes ((lo + v.toNat % (hi - lo + 1)) * atRb r)
      engMod (fun s => s |> finc (ENG_ATT_EVENT_CNT 3) |> fset ENG_ATT_STATUS_RECOMPUTE_STK 1)
    recompute r bl t

/-- ATTEND. -/
def attend (r : BitVec 1024) : Eng Unit := do
  let (f, bl) ← seqsGo r (atSeqs r) 0
  if !atFast r then recompute r bl ((bl.map (·.pan)).eraseDups)
  engDetail f
  if (← get).dropped > 0 then modify (fun e => { e with status := 2 })

/-- ATTEND (R353). -/
def execAttend (d : Nat) (inp : EngIn) (s : State) := ok (runEng 5 1 d inp attend s)

end Sys2Proof.Machine
end

