-- ==== Sys2Proof/Machine/Beryl.lean ====
section
/-! DEFINITION. Requests on the management endpoints (R521), and Beryl: counters, journal, time and reports (chapter 21). -/

namespace Sys2Proof.Machine

/-! ### Requests -/

/-- Answer a management request. -/
def answer (m : MgtReq) (code : Nat) (data : List Byte) (s : State) : State := emit (.answer m.tag.toNat code data) s

/-- An Ifedrirvo command (R521): not answered while no firmware runs (R517), and not permitted outside a secured session. -/
def mgtCmd (m : MgtReq) (f : State → State) (s : State) : State :=
  if !s.mgt.fwUp then s
  else if !m.secured then s |> finc (SEC_EVENT_CNT 1) |> answer m 3 []
  else s |> journalAppend |> f

/-- Entry of a port that a Requester ID belongs to. -/
def doeEntry (p : Nat) (reqId : Nat) (s : State) : Option Nat :=
  (List.range 16).find? (fun k => fbit (PRT_AGENT_VALID p k) s
    && (fbit (PRT_AGENT_MATCH_ANY p k) s || fget (PRT_AGENT_REQ_ID p k) s == reqId))

/-! ### Counters (R494) -/

/-- Add to counter `i`, saturating. -/
def bump (i n : Nat) (l : List Nat) : List Nat := l.modify i (fun x => min (x + n) (2 ^ 64 - 1))

/-- Change the meter of a slot. -/
def modMeter (slot : Nat) (f : Meter → Meter) (s : State) : State :=
  match kget? s.brl.meters slot with
  | some m => { s with brl := { s.brl with meters := kput s.brl.meters slot (f m) } }
  | none => s

/-- The counters of a composition at the end of a tick. -/
def tickMeter (c : Comp) (lfLost : Bool) (m : Meter) : Meter :=
  let l := bump (if c.state = .failed then 1 else 0) 1 m.counts
  let l := l |> bump 2 (c.nearBytes / frameBytes) |> bump 3 (c.farBytes / frameBytes) |> bump 4 (c.harvestReserve / frameBytes)
  { m with counts := l, since := m.since + 1, lfLost := m.lfLost || lfLost }

/-! ### The journal (R498 to R500) -/

/-- Append an entry: its 16 bytes of payload. -/
def brlJournal (kind : Nat) (payload : List Byte) (s : State) : State :=
  let chain := match s.brl.journal.getLast? with
    | some e => (sha384 e).take 16
    | none => List.replicate 16 0
  let e := natLe 1 kind ++ natLe 3 0 ++ natLe 4 (fget BRL_STATUS_POWER_EPOCH s) ++ natLe 8 s.brl.jseq ++ natLe 8 (fget BRL_ELAPSED s)
    ++ natLe 8 (fget BRL_CIVIL s) ++ (payload ++ List.replicate 16 0).take 16 ++ chain
  { s with brl := { s.brl with journal := s.brl.journal ++ [e], jseq := s.brl.jseq + 1 } }

/-- CHECKPOINT (R500). -/
def brlCheckpoint (s : State) : State :=
  if !s.brl.on then s else
  let civil := if fbit BRL_STATUS_CIVIL_VALID s then fget BRL_CIVIL s else s.brl.lastCivil
  let c : BrlCheck := { meters := s.brl.meters, sealCnt := fget BRL_COUNTS_SEAL_CNT s, decls := fget BRL_COUNTS_TIME_DECL_CNT s,
                        reportSeq := s.brl.reportSeq, civil := some civil }
  { s with brl := { s.brl with check := c } } |> brlJournal 4 []

/-- A seal event (R498): cause 1 image, 2 delta, 3 firmware, 4 debug unlock. -/
def sealEvent (cause : Nat) (s : State) : State :=
  if !s.brl.on then s else
  let s := finc BRL_COUNTS_SEAL_CNT s
  s |> brlJournal 2 (natLe 4 (fget BRL_COUNTS_SEAL_CNT s) ++ natLe 4 cause ++ natLe 8 s.img.serial) |> brlCheckpoint

/-- Usage may have gone uncounted (R496, R500): cause 1 a failed audit, 2 a power loss. -/
def countGap (slot cause : Nat) (s : State) : State :=
  match kget? s.brl.meters slot with
  | none => s
  | some m => s |> brlJournal 5 (natLe 8 m.cmpId ++ natLe 8 cause) |> modMeter slot (fun m => { m with gap := true })

/-! ### Civil time (R502, R503) -/

/-- A leap year of the Gregorian calendar. -/
def isLeap (y : Nat) : Bool := y % 4 == 0 && (y % 100 != 0 || y % 400 == 0)

/-- Days of a month. -/
def monthDays (y m : Nat) : Nat := if m = 2 then (if isLeap y then 29 else 28) else if [4, 6, 9, 11].contains m then 30 else 31

/-- Leap years up to a year. -/
def leapsTo (y : Nat) : Nat := y / 4 - y / 100 + y / 400

/-- Days from 1970-01-01 to a date. -/
def daysTo (y m d : Nat) : Nat :=
  365 * (y - 1970) + (leapsTo (y - 1) - leapsTo 1969) + ((List.range (m - 1)).map (fun i => monthDays y (i + 1))).sum + (d - 1)

/-- CIVIL_MS of a date and time. -/
def civilMs (y mo d h mi se ms : Nat) : Nat := daysTo y mo d * 86400000 + h * 3600000 + mi * 60000 + se * 1000 + ms

/-- The first field of a declaration that is out of range: its result code. -/
def civilCheck (y mo d h mi se ms : Nat) : Nat :=
  if y < 1970 || y > 2399 then 1 else if mo < 1 || mo > 12 then 2 else if d = 0 || d > monthDays y mo then 3
  else if h > 23 then 4 else if mi > 59 then 5 else if se > 59 then 6 else if ms > 999 then 7 else 0

/-- SET_CIVIL_TIME. -/
def setCivilTime (y mo d h mi se ms : Nat) (s : State) : State :=
  if !s.brl.on then s else
  let r := civilCheck y mo d h mi se ms
  let s := emit (.answer 0 r []) s
  if r ≠ 0 then finc (BRL_EVENTS 0) s else
  let new := civilMs y mo d h mi se ms
  let s := s |> fset BRL_STATUS_CIVIL_VALID 1 |> fset BRL_STATUS_DISCONTINUITY 0 |> finc BRL_COUNTS_TIME_DECL_CNT
    |> brlJournal 3 (natLe 8 (fget BRL_CIVIL s) ++ natLe 8 new)
  { s with brl := { s.brl with declared := some new } } |> brlCheckpoint

/-- Civil time at the boundary of a tick: a declaration takes effect, else time advances to the end of 2399. -/
def civilTick (s : State) : State :=
  match s.brl.declared with
  | some t => { s with brl := { s.brl with declared := none } } |> fset BRL_CIVIL t
  | none =>
    if !fbit BRL_STATUS_CIVIL_VALID s then s else
    let t := fget BRL_CIVIL s + 1
    if t ≥ civilMs 2400 1 1 0 0 0 0 then
      { s with brl := { s.brl with lastCivil := t } } |> fset BRL_STATUS_CIVIL_VALID 0 |> fset BRL_CIVIL 0
    else fset BRL_CIVIL t s

/-- METER_TICK. -/
def meterTick (s : State) : State :=
  if !s.brl.on then s else
  let lost := fbit BRL_STATUS_LFREF_LOST s
  s |> finc BRL_ELAPSED |> civilTick |> each s.comps (fun c => modMeter c.slot (tickMeter c lost))

/-- METER_TOKENS: pan contexts held, by engine, and host lines. -/
def meterTokens (slot : Nat) (us : List (Fin 6 × Nat)) (lines : Nat) (s : State) : State :=
  if !s.brl.on then s else
  modMeter slot (fun m => { m with counts := us.foldl (fun l e => bump (5 + e.1.val) e.2 l) (bump 11 lines m.counts) }) s

/-! ### Reports (R505 to R508) -/

/-- A binding record's field. -/
def bindField (b : Nat) (off n : Nat) (s : State) : Nat := secField s.brl.cfg (32 * b + off) n

/-- PERIOD_S in ms. -/
def periodMs (c : Comp) (s : State) : Nat := min 3600 (bindField c.meterBinding 2 2 s) * 1000

/-- The number CMP_STATE reports for a state. -/
def stateCode (c : Comp) : Nat := match c.state with | .active => 1 | .changing => 2 | .failed => 3

/-- The signed bytes of a report. -/
def reportBody (kind seq : Nat) (c : Comp) (m : Meter) (s : State) : List Byte :=
  let flags := fget BRL_STATUS_DISCONTINUITY s + 2 * fget BRL_STATUS_CIVIL_VALID s + 4 * b2n m.lfLost + 8 * b2n m.gap
    + 16 * fget BRL_STATUS_UNLOCKED_SEEN s
  natLe 4 0x524C5242 ++ natLe 2 1 ++ natLe 1 kind ++ natLe 1 flags ++ natLe 8 Config.fuseUid.toNat ++ natLe 8 seq
    ++ natLe 4 (fget BRL_COUNTS_SEAL_CNT s) ++ natLe 4 (fget BRL_COUNTS_TIME_DECL_CNT s) ++ natLe 4 (fget BRL_STATUS_POWER_EPOCH s)
    ++ natLe 4 m.instance_ ++ natLe 8 (fget BRL_ELAPSED s) ++ natLe 8 (fget BRL_CIVIL s) ++ natLe 8 s.img.serial
    ++ sha384 s.brl.cfg ++ natLe 2 c.cmpId ++ natLe 1 c.slot ++ natLe 1 (stateCode c) ++ natLe 1 c.meterBinding ++ natLe 3 0
    ++ natLe 8 c.tenantTag ++ natLe 8 (bindField c.meterBinding 8 8 s) ++ natLe 8 m.lastCut
    ++ m.counts.flatMap (natLe 8) ++ natLe 16 0

/-- Put a report in the store: the oldest PERIODIC makes room, and with none the new report is not held. -/
def holdReport (r : Report) (s : State) : State :=
  let b := s.brl
  if b.held.length < 4096 then { s with brl := { b with held := b.held ++ [r] } }
  else if b.held.any (fun x => x.kind == 1) then
    { s with brl := { b with held := dropFirst (fun x => x.kind == 1) b.held ++ [r] } } |> finc (BRL_EVENTS 4)
  else s

/-- Keep a FINAL report: the oldest of 256 makes room. -/
def holdFinal (r : Report) (s : State) : State :=
  let full : Bool := s.brl.finals.length ≥ 256
  let l := (if full then s.brl.finals.drop 1 else s.brl.finals) ++ [r]
  { s with brl := { s.brl with finals := l } } |> onlyIf full (finc (BRL_EVENTS 2)) |> fset BRL_STATUS_FINAL_HELD l.length

/-- Push a report to every EID subscribed on Beryl's endpoint, through running firmware. -/
def pushReport (r : Report) (s : State) : State :=
  if !s.mgt.fwUp then s else each s.brl.subs (fun e => emit (.record "REPORT" (e.2 :: r.bytes.map (·.toNat)))) s

/-- Cut a report of the composition in a slot: 1 PERIODIC, 2 ON_DEMAND, 3 FINAL. -/
def cutReport (kind : Nat) (c : Comp) (s : State) : State :=
  match kget? s.brl.meters c.slot with
  | none => s
  | some m =>
    let seq := s.brl.reportSeq + 1
    let body := reportBody kind seq c m s
    let r : Report := { seq, kind, bytes := body ++ (Config.signature 2 body ++ List.replicate 96 0).take 96 }
    let s := { s with brl := { s.brl with reportSeq := seq } } |> finc (BRL_EVENTS 3)
      |> modMeter c.slot (fun m => { m with lastCut := fget BRL_ELAPSED s, gap := false, lfLost := false })
    let s := if kind = 3 then s |> holdFinal r |> brlJournal 6 (natLe 8 c.cmpId ++ natLe 8 seq) else holdReport r s
    if kind = 2 then emit (.record "REPORT" (r.bytes.map (·.toNat))) s
    else { s with brl := { s.brl with pushed := s.brl.pushed ++ [r] } } |> pushReport r

/-- PERIODIC_REPORT: its period has elapsed. -/
def periodicReport (slot : Nat) (s : State) : State :=
  match compAt slot s, kget? s.brl.meters slot with
  | some c, some m =>
    let p := periodMs c s
    if !s.brl.on || p = 0 || m.since < p then s
    else s |> modMeter slot (fun m => { m with since := m.since - p }) |> cutReport 1 c
  | _, _ => s

/-- An ON_DEMAND report is cut; during a watchdog restart it waits. -/
def demandReport (slot : Nat) (s : State) : State :=
  match compAt slot s with
  | none => s
  | some c =>
    if s.brl.restarting then { s with brl := { s.brl with deferred := s.brl.deferred ++ [slot] } } else cutReport 2 c s

/-- ON_DEMAND: a host may ask for its own composition only. -/
def onDemand (r : Requester) (slot : Nat) (s : State) : State :=
  if !s.brl.on then s else
  match r with
  | .doe p q =>
    match doeEntry p q.toNat s with
    | none => finc (SEC_EVENT_CNT 1) s
    | some k => if fget (PRT_AGENT_SLOT p k) s = slot then demandReport slot s else s
  | .mgmt _ => if s.mgt.fwUp then demandReport slot s else s

/-- REPORT_PUSH_RETRY. -/
def reportPushRetry (s : State) : State := if s.brl.on then each s.brl.pushed pushReport s else s

/-- REPORT_READ: up to 8 held reports from a sequence number on. -/
def reportRead (m : MgtReq) (seq count : Nat) (s : State) : State :=
  if !s.brl.on || s.brl.restarting then s else
  let all := (s.brl.held ++ s.brl.finals).filter (fun r => r.seq ≥ seq)
  let sorted := all.mergeSort (fun a b => a.seq ≤ b.seq)
  answer m 0 ((sorted.take (min 8 count)).flatMap (·.bytes)) s

/-- REPORT_ACK: held reports up to a sequence number are released. -/
def reportAck (m : MgtReq) (seq : Nat) (s : State) : State :=
  if !s.brl.on || s.brl.restarting then s else
  let keep (l : List Report) : List Report := l.filter (fun r => r.seq > seq)
  let finals := keep s.brl.finals
  let b := { s.brl with held := keep s.brl.held, finals, pushed := keep s.brl.pushed }
  { s with brl := b } |> fset BRL_STATUS_FINAL_HELD finals.length |> answer m 0 []

/-- JOURNAL_EXTRACT: a signed run of entries from one JSEQ on. -/
def journalExtract (m : MgtReq) (first count : Nat) (s : State) : State :=
  if !s.brl.on || s.brl.restarting then s else
  let run := ((s.brl.journal.drop first).take count).flatten
  answer m 0 (run ++ Config.signature 2 run) s

/-! ### Compositions come and go (R495) -/

/-- A composition is created: its counters start at zero, its INSTANCE is new. -/
def meterCreate (c : Comp) (s : State) : State :=
  if !s.brl.on then s else
  let n := kgetD s.brl.instances c.cmpId 0 + 1
  let m : Meter := { cmpId := c.cmpId, instance_ := n, counts := List.replicate 12 0 }
  { s with brl := { s.brl with instances := kput s.brl.instances c.cmpId n, meters := kput s.brl.meters c.slot m } }

/-- A composition is removed: the FINAL report, then its counters are discarded. -/
def meterRemove (c : Comp) (s : State) : State :=
  if !s.brl.on then s else
  let s := cutReport 3 c s
  { s with brl := { s.brl with meters := kdel s.brl.meters c.slot } }

/-- A composition that was there before a reset keeps its counters; a meter of another composition in its slot is closed. -/
def meterResume (c : Comp) (s : State) : State :=
  match s.brl.meters.find? (fun e => e.2.cmpId == c.cmpId) with
  | some e => { s with brl := { s.brl with meters := kput (kdel s.brl.meters e.1) c.slot e.2 } }
  | none => meterCreate c s

/-- Compositions that an image no longer holds are removed. -/
def meterPrune (old : List Comp) (ids : List Nat) (s : State) : State :=
  let gone := s.brl.meters.filter (fun e => !ids.contains e.2.cmpId)
  each gone (fun e s =>
    match old.find? (fun c => c.cmpId == e.2.cmpId) with
    | some c => meterRemove { c with slot := e.1 } s
    | none => { s with brl := { s.brl with meters := kdel s.brl.meters e.1 } }) s

/-! ### The core (R493, R500) -/

/-- BERYL_POWER_UP. -/
def berylPowerUp (fw : List Byte) (s : State) : State :=
  if s.brl.on then s else
  let b := s.brl
  let k := b.check
  let epoch := fget BRL_STATUS_POWER_EPOCH s + 1
  let old := b.fwDigest
  let s := { s with
    regs := s.regs.filter (fun e => !inBrl (e.1 / 8)),
    brl := { on := true, meters := k.meters.map (fun e => (e.1, { e.2 with lastCut := 0 })), instances := b.instances, cfg := b.cfg,
             reportSeq := k.reportSeq, journal := b.journal, jseq := b.jseq, check := k, lastCivil := k.civil.getD 0, fwDigest := fw } }
  let s := s |> fset BRL_STATUS_POWER_EPOCH epoch |> fset BRL_COUNTS_SEAL_CNT k.sealCnt |> fset BRL_COUNTS_TIME_DECL_CNT k.decls
    |> brlJournal 1 []
  let s := each s.brl.meters (fun e => countGap e.1 2) s
  if old.isEmpty || old == fw then s else sealEvent 3 s

/-- BERYL_WATCHDOG: the core restarts; counting never pauses. -/
def berylWatchdog (s : State) : State :=
  if !s.brl.on then s else { s with brl := { s.brl with restarting := true } } |> finc (BRL_EVENTS 1)

/-- BERYL_RESTART_DONE: deferred requests are answered. -/
def berylRestarted (s : State) : State :=
  let l := s.brl.deferred
  { s with brl := { s.brl with restarting := false, deferred := [] } } |> each l demandReport

/-- METER_TICK (R494). -/
def execMeterTick (s : State) := ok (meterTick s)
/-- METER_TOKENS (R496). -/
def execMeterTokens (slot : Fin 64) (us : List (Fin 6 × Nat)) (lines : Nat) (s : State) := ok (meterTokens slot us lines s)
/-- CHECKPOINT (R500). -/
def execCheckpoint (s : State) := ok (brlCheckpoint s)
/-- BERYL_POWER_UP (R500). -/
def execBerylPowerUp (fw : List Byte) (s : State) := ok (berylPowerUp fw s)
/-- BERYL_WATCHDOG (R493). -/
def execBerylWatchdog (s : State) := ok (berylWatchdog s)
/-- BERYL_RESTART_DONE (R493). -/
def execBerylRestartDone (s : State) := ok (berylRestarted s)
/-- SET_CIVIL_TIME (R502). -/
def execSetCivilTime (y : BitVec 16) (mo d h mi se : BitVec 8) (ms : BitVec 16) (s : State) :=
  ok (setCivilTime y.toNat mo.toNat d.toNat h.toNat mi.toNat se.toNat ms.toNat s)
/-- PERIODIC_REPORT (R505). -/
def execPeriodicReport (slot : Fin 64) (s : State) := ok (periodicReport slot s)
/-- ON_DEMAND (R505). -/
def execOnDemand (r : Requester) (slot : Fin 64) (s : State) := ok (onDemand r slot s)
/-- REPORT_PUSH_RETRY (R506). -/
def execReportPushRetry (s : State) := ok (reportPushRetry s)
/-- REPORT_READ (R506). -/
def execReportRead (m : MgtReq) (seq : BitVec 64) (count : BitVec 8) (s : State) :=
  ok (mgtCmd m (reportRead m seq.toNat count.toNat) s)
/-- REPORT_ACK (R506). -/
def execReportAck (m : MgtReq) (seq : BitVec 64) (s : State) := ok (mgtCmd m (reportAck m seq.toNat) s)
/-- JOURNAL_EXTRACT (R499). -/
def execJournalExtract (m : MgtReq) (first : BitVec 64) (count : BitVec 8) (s : State) :=
  ok (mgtCmd m (journalExtract m first.toNat count.toNat) s)

end Sys2Proof.Machine
end

