-- ==== Sys2Proof/Machine/Clock.lean ====
section
/-! DEFINITION. Clocks (chapter 17): the monitors, the votes, the clock plan's state machine, Clock-Hold, AORC. -/

namespace Sys2Proof.Machine

/-- The plan is entered: reported, and recorded in the lifetime record (R415, R530). -/
def setPlan (p : Nat) (s : State) : State := s |> fset CLK_STATUS_PLAN p |> logEvent 0x09 0 p |> showCodes

/-- A non-maskable event (R420): delivered to running firmware, which sends a clock event, or latched. -/
def latchNmi (s : State) : State :=
  if s.mgt.fwUp then eventF 0x0030 0 s
  else { s with mgt := { s.mgt with nmis := s.mgt.nmis + 1 } } |> fset CLK_STATUS_NMI_PENDING 1

/-- The latched non-maskable events are delivered at a firmware start: one clock event for each. -/
def deliverNmis (s : State) : State :=
  let n := s.mgt.nmis
  { s with mgt := { s.mgt with nmis := 0 } } |> fset CLK_STATUS_NMI_PENDING 0 |> each (List.range n) (fun _ => eventF 0x0030 0)

/-- XREF_A (0) or XREF_B (1) passes its vote. -/
def xrefGood (x : Nat) (s : State) : Bool := fbit (if x = 0 then CLK_STATUS_XREF_A_OK else CLK_STATUS_XREF_B_OK) s

/-- The monitors run: PD38 is not on LFREF after an AORC failure (R468). -/
def monitorsRun (s : State) : Bool := s.clk.pd38 != 2

/-- Clock-Hold (R418). -/
def enterHold (s : State) : State :=
  let s := coreOff s
  { s with mgt := { s.mgt with fwUp := false }, clk := { s.clk with lockTo := none } }
    |> fset CLK_STATUS_HOLD_STK 1 |> finc (CLK_EVENT_CNT 3) |> latchNmi |> fset GLB_PKG_STATUS_FAULT 1 |> setPlan 3

/-- The fallback plan is entered (R415). -/
def enterFallback (s : State) : State :=
  { s with clk := { s.clk with lockTo := none } } |> fset CLK_STATUS_FALLBACK_STK 1 |> finc (CLK_EVENT_CNT 2) |> setPlan 2

/-- The SerDes PLLs change to the other XREF when theirs fails, or every link goes down (R419). -/
def serdesCheck (s : State) : State :=
  let x := fget CLK_STATUS_SERDES_XREF s
  if xrefGood x s then s
  else if xrefGood (1 - x) s then fset CLK_STATUS_SERDES_XREF (1 - x) s
  else linksFall s

/-- Which XREF the PLLs lock to when the core must leave FALLBACK: the one it used, else the other. -/
def anyXref (s : State) : Option Nat :=
  let x := fget CLK_STATUS_CORE_XREF s
  if xrefGood x s then some x else if xrefGood (1 - x) s then some (1 - x) else none

/-- What the plan does when XREF `x` has failed (R415). -/
def xrefFailed (x : Nat) (s : State) : State :=
  let s := serdesCheck s
  let iro := fbit CLK_STATUS_IRO_QUAL s
  let s := if s.clk.lockTo == some x then { s with clk := { s.clk with lockTo := none } } |> fset CLK_CTL_RETURN 0 else s
  match fget CLK_STATUS_PLAN s with
  | 0 => startLock s
  | 1 =>
    if fget CLK_STATUS_CORE_XREF s = x then
      if iro then s |> enterFallback |> latchNmi
      else if xrefGood (1 - x) s then s |> fset CLK_STATUS_CORE_XREF (1 - x) |> latchNmi
      else enterHold s
    else eventF 0x0030 0 s
  | 2 =>
    if iro then s else match anyXref s with
      | some y => { s with clk := { s.clk with lockTo := some y } }
      | none => enterHold s
  | _ => s

/-- XREF `x` fails: out of service until it has passed four windows (R410). -/
def failXref (x : Nat) (s : State) : State :=
  let was := xrefGood x s
  let c := s.clk
  let c := if x = 0 then { c with aRun := 0, aFailed := true } else { c with bRun := 0, bFailed := true }
  let s := { s with clk := c }
  let s := s |> finc (CLK_EVENT_CNT 0)
    |> fset (if x = 0 then CLK_STATUS_XREF_A_OK else CLK_STATUS_XREF_B_OK) 0
    |> fset (if x = 0 then CLK_STATUS_XREF_A_FAIL_STK else CLK_STATUS_XREF_B_FAIL_STK) 1
  if was then xrefFailed x s else s

/-- XREF `x` is in service. -/
def xrefInService (x : Nat) (s : State) : State :=
  let c := if x = 0 then { s.clk with aFailed := false } else { s.clk with bFailed := false }
  let s := { s with clk := c } |> fset (if x = 0 then CLK_STATUS_XREF_A_OK else CLK_STATUS_XREF_B_OK) 1
  if fget CLK_STATUS_PLAN s = 0 && s.clk.lockTo.isNone then startLock s else s

/-- XREF `x` passes a window. -/
def passXref (x : Nat) (s : State) : State :=
  let c := if x = 0 then { s.clk with aRun := s.clk.aRun + 1 } else { s.clk with bRun := s.clk.bRun + 1 }
  let s := { s with clk := c }
  let (run, failed) := if x = 0 then (c.aRun, c.aFailed) else (c.bRun, c.bFailed)
  if xrefGood x s || (failed && run < 4) then s else xrefInService x s

/-- A comparison of two frequencies, in ppm from their nominals, is out of tolerance; an absent clock is. -/
def outOfTol (x y : Option Int) (tol : Nat) : Bool :=
  match x, y with
  | some x, some y => (x - y).natAbs * 1000000 > tol * (1000000 + y).toNat
  | _, _ => true

/-- XREF `x` passes the vote of a window (R410). -/
def voteFor (x : Nat) (v : XrefVote) (s : State) : Bool :=
  let me := if x = 0 then v.a else v.b
  let other := if x = 0 then v.b else v.a
  let lf := if fbit CLK_STATUS_LFREF_OK s then outOfTol me v.lf 500 else outOfTol me v.aorc 50000
  let iro := if fbit CLK_STATUS_IRO_QUAL s then outOfTol me v.iro 20000 else outOfTol me v.aorc 50000
  b2n (outOfTol me other 500) + b2n lf + b2n iro < 2

/-- XREF_VOTE_WINDOW: both votes are those of one window, judged together before either acts. -/
def voteWindow (v : XrefVote) (s : State) : State :=
  if fget CLK_STATUS_PLAN s = 3 || !monitorsRun s then s else
  let a := voteFor 0 v s
  let b := voteFor 1 v s
  let s := if a then passXref 0 s else s
  let s := if b then passXref 1 s else s
  let s := if a then s else failXref 0 s
  if b then s else failXref 1 s

/-- XREF_EDGE_LOSS. -/
def xrefEdgeLoss (b : Bool) (s : State) : State :=
  if fget CLK_STATUS_PLAN s = 3 || !monitorsRun s then s else failXref (b2n b) s

/-- IRO loses qualification (R411, R415). -/
def loseIro (s : State) : State :=
  let was := fbit CLK_STATUS_IRO_QUAL s
  let s := s |> fset CLK_STATUS_IRO_QUAL 0 |> fset CLK_STATUS_IRO_FAIL_STK 1 |> finc (CLK_EVENT_CNT 1)
  if was && fget CLK_STATUS_PLAN s = 2 then
    match anyXref s with
    | some x => { s with clk := { s.clk with lockTo := some x } } |> latchNmi
    | none => enterHold s
  else s

/-- IRO was found within ±10 % (R411). -/
def iroInRange (ppm : Option Int) : Bool := ppm.any (fun p => p.natAbs ≤ 100000)

/-- IRO_WINDOW. -/
def iroWindow (ppm : Option Int) (s : State) : State :=
  if !monitorsRun s then s else if iroInRange ppm then fset CLK_STATUS_IRO_QUAL 1 s else loseIro s

/-- LFREF fails (R409); Beryl counts BOSC instead (R501). -/
def loseLfref (s : State) : State :=
  if !monitorsRun s then s else
  { s with clk := { s.clk with lfRun := 0 } } |> fset CLK_STATUS_LFREF_OK 0 |> fset CLK_STATUS_LFREF_FAIL_STK 1
    |> onlyIf s.brl.on (fset BRL_STATUS_LFREF_LOST 1)

/-- LFREF_WINDOW: LFREF is good again after two windows. -/
def lfrefWindow (ppm : Option Int) (s : State) : State :=
  if !monitorsRun s then s
  else if !ppm.any (fun p => p.natAbs ≤ 50000) then loseLfref s
  else
    let n := s.clk.lfRun + 1
    let s := { s with clk := { s.clk with lfRun := n } }
    if n < 2 then s else s |> fset CLK_STATUS_LFREF_OK 1 |> onlyIf s.brl.on (fset BRL_STATUS_LFREF_LOST 0)

/-- CLOCK_START_TIMEOUT. -/
def startTimeout (s : State) : State :=
  if fget CLK_STATUS_PLAN s ≠ 0 || xrefGood 0 s || xrefGood 1 s then s
  else if fbit CLK_STATUS_IRO_QUAL s then enterFallback s else enterHold s

/-- HOLD_RETRY (R418): a single window suffices; success leaves by warm reset unless a thermal trip holds (R443). -/
def holdRetry (v : XrefVote) (iro : Option Int) (s : State) : State :=
  if fget CLK_STATUS_PLAN s ≠ 3 || !monitorsRun s then s else
  let a := voteFor 0 v s
  let b := voteFor 1 v s
  let s := finc (CLK_EVENT_CNT 4) s
  let s := if a then xrefInService 0 s else finc (CLK_EVENT_CNT 0) s
  let s := if b then xrefInService 1 s else finc (CLK_EVENT_CNT 0) s
  let s := iroWindow iro s
  if (a || b || fbit CLK_STATUS_IRO_QUAL s) && !fbit GLB_PKG_STATUS_THERMTRIP s then warmReset s else s

/-- RETURN = 1 was written (R417). -/
def returnClock (s : State) : State :=
  let x := fget CLK_CTL_RETURN_REF s
  if fget CLK_STATUS_PLAN s = 2 && xrefGood x s then
    { s with clk := { s.clk with lockTo := some x } } |> fset CLK_CTL_RETURN 1
  else finc GLB_IGNORED_WRITE_CNT s

/-- MAIN_PLL_LOCKED: the switch into MAIN. -/
def pllLocked (s : State) : State :=
  match s.clk.lockTo with
  | none => s
  | some x =>
    if !xrefGood x s || (fget CLK_STATUS_PLAN s ≠ 0 && fget CLK_STATUS_PLAN s ≠ 2) then s else
    { s with clk := { s.clk with lockTo := none } }
      |> fset CLK_STATUS_CORE_XREF x |> fset CLK_CTL_RETURN 0 |> setPlan 1

/-- AORC fails (R468). -/
def aorcFails (s : State) : State :=
  if s.clk.pd38 ≠ 0 then s else
  let s := s |> fset RAS_STATUS_AORC_FAIL_STK 1 |> fset GLB_PKG_STATUS_FAULT 1 |> eventF 0x0046 0
  if fbit CLK_STATUS_IRO_QUAL s then { s with clk := { s.clk with pd38 := 1 } }
  else { s with clk := { s.clk with pd38 := 2 } } |> onlyIf (fget CLK_STATUS_PLAN s != 3) enterHold

/-- CLOCK_START_TIMEOUT (R415). -/
def execClockStartTimeout (s : State) := ok (startTimeout s)
/-- LFREF_WINDOW (R409). -/
def execLfrefWindow (ppm : Option Int) (s : State) := ok (lfrefWindow ppm s)
/-- LFREF_EDGE_LOSS (R409). -/
def execLfrefEdgeLoss (s : State) := ok (loseLfref s)
/-- IRO_WINDOW (R411). -/
def execIroWindow (ppm : Option Int) (s : State) := ok (iroWindow ppm s)
/-- XREF_VOTE_WINDOW (R410). -/
def execXrefVoteWindow (v : XrefVote) (s : State) := ok (voteWindow v s)
/-- XREF_EDGE_LOSS (R410). -/
def execXrefEdgeLoss (b : Bool) (s : State) := ok (xrefEdgeLoss b s)
/-- HOLD_RETRY (R418). -/
def execHoldRetry (v : XrefVote) (iro : Option Int) (s : State) := ok (holdRetry v iro s)
/-- IRO_TRIM_END (R411). -/
def execIroTrimEnd (s : State) := ok (if monitorsRun s && fbit CLK_STATUS_IRO_QUAL s then loseIro s else s)
/-- MAIN_PLL_LOCKED (R415). -/
def execMainPllLocked (s : State) := ok (pllLocked s)
/-- AORC_FAIL (R468). -/
def execAorcFail (s : State) := ok (aorcFails s)

end Sys2Proof.Machine
end

