-- ==== Sys2Proof/Machine/Complete.lean ====
section
/-! DEFINITION. DESCRIPTOR_COMPLETE with what precedes and follows the record: write-backs of a software composition (R142),
replayed work (R189), the failure of a collective (R297), and the engines' own counts (R302, R327, R352, R370, R385). -/

namespace Sys2Proof.Machine

/-- The counter of an engine's descriptors completed with status 0x00 to 0x02. -/
def engDoneCnt (eng : Nat) : Fld :=
  match eng with
  | 0 => ENG_MOV_EVENT_CNT 0
  | 1 => ENG_CHK_EVENT_CNT 0
  | 2 => ENG_RED_EVENT_CNT 0
  | 3 => ENG_GTH_EVENT_CNT 0
  | 4 => ENG_RAK_EVENT_CNT 0
  | _ => ENG_ATT_EVENT_CNT 0

/-- Work that was replayed completes with status 0x01. -/
def noteReplays (d : Desc) : Desc := if d.phase == .finished && d.status == 0 && d.replays > 0 then { d with status := 1 } else d

/-- DESCRIPTOR_COMPLETE. -/
def completeList (id : Nat) (s : State) : State :=
  match descOf id s with
  | none => s
  | some d =>
    let s := s |> each (listOf d.list s) (fun m => collSweep m.id) |> flushDirty d.slot
    let s := each (listOf d.list s) (fun m => modDesc m.id noteReplays) s
    let ms := listOf d.list s
    let s := descriptorComplete id s
    if (descOf id s).isSome then s
    else each (ms.filter (fun m => m.phase == .finished && m.status < 3)) (fun m => finc (engDoneCnt (dEng m.raw))) s

/-- DESCRIPTOR_COMPLETE (R190). -/
def execDescriptorComplete (d : Nat) (s : State) := ok (completeList d s)

end Sys2Proof.Machine
end

