-- ==== Sys2Proof/Machine/Image.lean ====
section
/-! DEFINITION. The Nymmar image (chapter 2): its layout, its verification in the order of R41, and its application. -/

namespace Sys2Proof.Machine

/-! ### Layout (R32 to R38) -/

/-- A section directory entry (R33). -/
structure Sec where
  ty : Nat
  flags : Nat
  off : Nat
  len : Nat
  ver : Nat
  rsvd : Nat
  deriving DecidableEq, Repr

/-- The section directory; at most 64 entries are looked at. -/
def secsOf (b : List Byte) : List Sec :=
  let d := b.drop 0x40
  (List.range (min 64 (secField b 0x0C 2))).map (fun i =>
    { ty := secField d (16 * i) 2, flags := secField d (16 * i + 2) 2, off := secField d (16 * i + 4) 4,
      len := secField d (16 * i + 8) 4, ver := secField d (16 * i + 12) 2, rsvd := secField d (16 * i + 14) 2 })

/-- The bytes of a section, none when it is absent. -/
def sect? (b : List Byte) (ty : Nat) : Option (List Byte) :=
  ((secsOf b).find? (fun x => x.ty == ty)).map (fun x => (b.drop x.off).take x.len)

/-- The bytes of a section; empty when it is absent. -/
def sectionOf (b : List Byte) (ty : Nat) : List Byte := (sect? b ty).getD []

/-- Length of the signature block under a SIG_ALG (R35). -/
def sigLen (alg : Nat) : Nat := 16 + (if bitAt alg 0 then 96 else 0) + (if bitAt alg 1 then 4627 else 0)

/-- Where the signature block starts. -/
def sigStart (b : List Byte) : Nat := secField b 0x08 4 - sigLen (secField b 0x0E 1)

/-- Entry `i` of a COMPOSITIONS section (R38), with its PRESENT byte. -/
def compEntry (c : List Byte) (i : Nat) : Comp × Nat :=
  let e := c.drop (16 + 128 * i)
  let f (off n : Nat) : Nat := secField e off n
  let list := c.drop (f 0x4C 4)
  let flags := f 0x06 2
  ({ cmpId := f 0 2, slot := f 2 1, keySlot := f 3 1, software := f 4 1 == 1, hostCache := bitAt flags 0, harvestEn := bitAt flags 1,
     farEn := bitAt flags 2, peerEn := bitAt flags 3, portMask := f 0x08 8 % 2 ^ 24, nearBytes := f 0x10 8, farBytes := f 0x18 8,
     spanBytes := f 0x20 8, members := (List.range (f 0x28 2)).map (fun k => secField list (2 * k) 2), hostAgents := f 0x2A 2,
     heartbeatMs := f 0x2C 2, sluiceFirst := f 0x30 4, sluiceCount := f 0x34 4, bwClass := f 0x38 1, engineMask := f 0x39 1 % 64,
     hostRate := f 0x3A 2, harvestReserve := f 0x40 8, meterBinding := f 0x48 4, tenantTag := f 0x50 8 }, f 5 1)

/-- How many entries a COMPOSITIONS section holds; at most 64 are looked at. -/
def entryCount (c : List Byte) : Nat := min 64 (secField c 0 2)

/-- The entries of a COMPOSITIONS section. -/
def compEntries (c : List Byte) : List (Comp × Nat) := (List.range (entryCount c)).map (compEntry c)

/-- Every entry is read in a full image; in a delta an entry with PRESENT = 0 is read for its CMP_ID alone (R42). -/
def entryRead (full : Bool) (c : List Byte) (i : Nat) : Bool := full || secField c (16 + 128 * i + 5) 1 ≠ 0

/-- A field of entry `i`. -/
def entField (c : List Byte) (i off n : Nat) : Nat := secField c (16 + 128 * i + off) n

/-- Every byte of a range is zero. -/
def zeroBytes (b : List Byte) (off n : Nat) : Bool := ((b.drop off).take n).all (· == 0)

/-- The first code whose check fails; 0 for none (R41). -/
def firstCode : List (Bool × Nat) → Nat
  | [] => 0
  | (good, code) :: r => if good then firstCode r else code

/-! ### The checks, by code of R41 -/

/-- Required lengths of the sections of fixed layout: PORT_ROLES, POOL, CLOCK_PLAN, POWER_PLAN, ENGINE_DEFAULTS, METERING. -/
def fixedLen (ty : Nat) : Option Nat :=
  match ty with
  | 1 => some 192 | 2 => some 112 | 4 => some 48 | 5 => some 24 | 6 => some 384 | 7 => some 2048 | _ => none

/-- 0x02: the format. -/
def formatOk (b : List Byte) : Bool :=
  let alg := secField b 0x0E 1
  secField b 4 2 == 1 && 1 ≤ alg && alg ≤ 3 && (secsOf b).all (fun x => x.ty = 0 || 7 < x.ty || x.ver == 1)

/-- Two byte ranges are apart. -/
def apart (a la b lb : Nat) : Bool := la = 0 || lb = 0 || a + la ≤ b || b + lb ≤ a

/-- No two sections overlap. -/
def noOverlap : List Sec → Bool
  | [] => true
  | x :: r => r.all (fun y => apart x.off x.len y.off y.len) && noOverlap r

/-- The lengths of a COMPOSITIONS section: its header, its entries, and the member lists of the entries that are read. -/
def compLenOk (full : Bool) (c : List Byte) : Bool :=
  let n := secField c 0 2
  16 ≤ c.length && secField c 2 2 == 128 && n ≤ 64 && 16 + 128 * n ≤ c.length &&
    (List.range n).all (fun i => !entryRead full c i ||
      (entField c i 0x4C 4 % 8 == 0 && entField c i 0x4C 4 + 2 * entField c i 0x28 2 ≤ c.length))

/-- 0x03: lengths, bounds, overlap, alignment, and the signature block's own fields. -/
def lengthOk (full : Bool) (b : List Byte) : Bool :=
  let total := secField b 8 4
  let n := secField b 0x0C 2
  let alg := secField b 0x0E 1
  let secs := secsOf b
  let sg := b.drop (sigStart b)
  total ≤ 2 ^ 24 && total ≤ b.length && (full || total == b.length) && 1 ≤ n && n ≤ 64 &&
    0x40 + 16 * n + sigLen alg ≤ total &&
    secs.all (fun x => x.off % 8 == 0 && 0x40 + 16 * n ≤ x.off && x.off + x.len ≤ sigStart b) && noOverlap secs &&
    secs.all (fun x => match fixedLen x.ty with
      | some l => x.len == l
      | none => x.ty != 3 || compLenOk full ((b.drop x.off).take x.len)) &&
    secField sg 0 1 == alg && secField sg 4 4 == (if bitAt alg 0 then 96 else 0) && secField sg 8 4 == (if bitAt alg 1 then 4627 else 0)

/-- 0x04: BODY_CRC. -/
def crcOk (b : List Byte) : Bool := crc32c ((b.take (sigStart b)).drop 0x40) == secField b 0x28 4

/-- A signature verifies under the image key slot that it names (R35, R475, R478). -/
def signedOk (alg slot : Nat) (msg sig : List Byte) (s : State) : Bool :=
  match kget? s.sec.imgKeys slot with
  | none => false
  | some (ec, ml) =>
    slot ≤ 3 && bitsOf (fget SEC_STATUS_IMGKEY s) (2 * slot) 2 == 1 && !(fbit SEC_STATUS_REQUIRE_PQ s && alg == 1)
      && Config.sigValid alg (ec ++ ml) msg sig

/-- 0x05: the signature. -/
def imageSigned (b : List Byte) (s : State) : Bool :=
  signedOk (secField b 0x0E 1) (secField b 0x0F 1) (b.take (sigStart b)) ((b.take (secField b 8 4)).drop (sigStart b + 16)) s

/-- 0x06: the serial (R42). -/
def serialOk (full : Bool) (b : List Byte) (s : State) : Bool :=
  s.lr.cur.highestSerial ≤ secField b 0x10 8 && (full || secField b 0x30 8 < secField b 0x10 8)

/-- 0x07: the target. A full image sets the pool, so only a delta's POOL_ID is compared. -/
def targetOk (full : Bool) (b : List Byte) (s : State) : Bool :=
  secField b 0x18 8 == fget GLB_UID s && (full || secField b 0x20 8 == s.img.poolId)

/-- 0x08: the sections, and the path. -/
def sectionsOk (full : Bool) (b : List Byte) : Bool :=
  let ts := (secsOf b).map (·.ty)
  let need := if full then [1, 2, 3, 4, 5, 6, 7] else [3]
  let bar := if full then [] else [1, 2, 4, 5]
  need.all (ts.contains ·) && !bar.any (ts.contains ·) && ts.eraseDups.length == ts.length && !ts.contains 0
    && bitAt (secField b 0x2C 4) 0 != full

/-- 0x09: a reserved section marked CRITICAL. -/
def criticalOk (b : List Byte) : Bool := (secsOf b).all (fun x => x.ty ≤ 7 || !bitAt x.flags 0)

/-- RSVD fields of PORT_ROLES and POOL. -/
def portsZero (r p : List Byte) : Bool :=
  (List.range 24).all (fun i => zeroBytes r (8 * i + 5) 3) && secField p 0 2 < 4096 && zeroBytes p 6 10
    && (List.range 24).all (fun i => zeroBytes p (16 + 4 * i + 3) 1)

/-- RSVD fields of CLOCK_PLAN and POWER_PLAN (R414, R428). -/
def plansZero (c p : List Byte) : Bool :=
  secField c 0 1 < 2 && zeroBytes c 2 14 && secField p 4 1 < 2 && zeroBytes p 5 1 && zeroBytes p 0x0E 2 && zeroBytes p 0x14 4

/-- RSVD fields of ENGINE_DEFAULTS (R302, R327, R352). -/
def engineZero (e : List Byte) : Bool :=
  zeroBytes e 0 128 && zeroBytes e 0x82 62 && zeroBytes e 0xC1 63 && zeroBytes e 0x103 61 && zeroBytes e 0x140 64

/-- RSVD fields of METERING (R497). -/
def meterZero (m : List Byte) : Bool :=
  (List.range 64).all (fun i => secField m (32 * i) 1 < 2 && zeroBytes m (32 * i + 1) 1 && zeroBytes m (32 * i + 4) 4
    && zeroBytes m (32 * i + 16) 16)

/-- RSVD fields of COMPOSITIONS (R38). -/
def compsZero (full : Bool) (c : List Byte) : Bool :=
  zeroBytes c 4 12 && (List.range (entryCount c)).all (fun i => !entryRead full c i ||
    (entField c i 6 2 < 16 && entField c i 8 8 < 2 ^ 24 && entField c i 0x2E 2 == 0 && entField c i 0x39 1 < 64
      && entField c i 0x3C 4 == 0 && zeroBytes c (16 + 128 * i + 0x58) 40))

/-- 0x0A: reserved fields, and BASE_SERIAL of a full image. -/
def reservedOk (full : Bool) (b : List Byte) : Bool :=
  let sg := b.drop (sigStart b)
  secField b 0x2C 4 < 2 && secField b 0x38 8 == 0 && (!full || secField b 0x30 8 == 0)
    && (secsOf b).all (fun x => x.flags < 2 && x.rsvd == 0) && zeroBytes sg 1 3 && zeroBytes sg 12 4
    && (!full || (portsZero (sectionOf b 1) (sectionOf b 2) && plansZero (sectionOf b 4) (sectionOf b 5)))
    && compsZero full (sectionOf b 3)
    && engineZero ((sect? b 6).getD []) && meterZero ((sect? b 7).getD [])

/-- The five bytes of each PORT_ROLES entry (R36): ROLE, BOND, LEADER, MAX_RATE, BW_CLASS_MAP. -/
def portRows (r : List Byte) : List (List Nat) :=
  (List.range 24).map (fun i => (List.range 5).map (fun j => secField r (8 * i + j) 1))

/-- One column of a row. -/
def col (rows : List (List Nat)) (i j : Nat) : Nat := (rows.getD i []).getD j 0

/-- One port obeys R36, R386 to R388. -/
def portOk (rows : List (List Nat)) (i : Nat) : Bool :=
  let role := col rows i 0
  let bond := col rows i 1
  let lead := col rows i 2
  let rate := col rows i 3
  let member (q : Nat) : Bool :=
    q < 24 && col rows q 1 == 3 && col rows q 2 == i && col rows q 0 == role && col rows q 3 == rate && col rows q 4 == col rows i 4
  role ≤ 3 && bond ≤ 3 && col rows i 4 ≤ 7 &&
    (match role with | 0 => rate == 0 | 3 => rate == 0x10 | _ => 1 ≤ rate && rate ≤ 4) &&
    (match bond with
     | 0 => lead == i
     | 1 => lead == i && (role == 1 || role == 2) && i % 2 == 0 && member (i + 1)
     | 2 => lead == i && role == 1 && [0, 8, 12, 20].contains i && member (i + 1) && member (i + 2) && member (i + 3)
     | _ => (col rows lead 1 == 1 && lead + 1 == i) || (col rows lead 1 == 2 && lead < i && i < lead + 4))

/-- 0x0B: the ports and the pool (R24, R36, R37, R388). -/
def portRulesOk (r p : List Byte) : Bool :=
  let rows := portRows r
  let count (role : Nat) : Nat := ((List.range 24).filter (fun i => col rows i 0 == role)).length
  (List.range 24).all (portOk rows) && count 1 ≤ 16 && count 2 ≤ 12 &&
    1 ≤ secField p 2 2 && secField p 2 2 ≤ 1024 && 1 ≤ secField p 4 1 && secField p 4 1 ≤ 8 && secField p 5 1 ≤ 1 &&
    (List.range 24).all (fun i => col rows i 0 == 3 || zeroBytes p (16 + 4 * i) 3)

/-- One present entry by itself (R38, R39, R389): the ports, this node, and the METERING section in force are given. -/
def entryOk (rows : List (List Nat)) (node : Nat) (met : List Byte) (c : List Byte) (i : Nat) (full : Bool) : Bool :=
  let f (off n : Nat) : Nat := entField c i off n
  let e := (compEntry c i).1
  let mib (v : Nat) : Bool := v % frameBytes == 0
  e.cmpId ≠ 0 && e.cmpId ≠ 0xFFFF && e.slot < 64 && e.keySlot < 64 && f 4 1 ≤ 1 && f 5 1 ≤ 1 && (!full || f 5 1 == 1) &&
    (List.range 24).all (fun p => !bitAt e.portMask p || (col rows p 0 == 1 && col rows p 1 != 3)) &&
    mib e.nearBytes && mib e.farBytes && mib e.spanBytes && mib e.harvestReserve &&
    (e.farEn || e.farBytes == 0) && (e.harvestEn || e.harvestReserve == 0) &&
    1 ≤ f 0x28 2 && f 0x28 2 ≤ 1024 && 1 ≤ e.hostAgents && e.hostAgents ≤ 256 && 10 ≤ e.heartbeatMs && e.heartbeatMs ≤ 1000 &&
    1 ≤ e.sluiceCount && e.sluiceCount ≤ 65536 && e.sluiceFirst + e.sluiceCount ≤ 65536 && e.bwClass ≤ 7 && e.meterBinding < 64 &&
    secField met (32 * e.meterBinding) 1 % 2 == 1 && (e.software || (e.members.length ≤ 16 && e.hostAgents ≤ 64)) &&
    e.members.contains node

/-- Two compositions can stand in one table (R39). -/
def distinct (a b : Comp) : Bool :=
  a.cmpId ≠ b.cmpId && a.slot ≠ b.slot && a.keySlot ≠ b.keySlot &&
    apart a.sluiceFirst a.sluiceCount b.sluiceFirst b.sluiceCount

/-- A table holds no two that clash. -/
def tableOk : List Comp → Bool
  | [] => true
  | c :: r => r.all (distinct c) && tableOk r

/-- 0x0D: capacity (R39, R103), against `far` bytes of far store. -/
def capacityOk (l : List Comp) (far : Nat) : Bool :=
  let sum (f : Comp → Nat) : Nat := (l.map f).sum
  sum (·.nearBytes) ≤ nearFrames * frameBytes && sum (·.farBytes) ≤ far &&
    l.all (fun c => c.harvestReserve ≤ c.nearBytes + c.farBytes) &&
    sum (fun c => c.nearBytes + c.farBytes + c.harvestReserve) ≤ nearFrames * frameBytes + far

/-- The ceiling on far store of a PORT_ROLES section: 4 TiB for each host-role link (R40). -/
def farCeiling (rows : List (List Nat)) : Nat :=
  ((List.range 24).filter (fun i => col rows i 0 == 2 && col rows i 1 != 3)).length * 2 ^ 42

/-- Verification of a full image: the code of R41. -/
def verifyFull (b : List Byte) (s : State) : Nat :=
  let rows := portRows (sectionOf b 1)
  let c := sectionOf b 3
  let es := compEntries c
  let node := secField (sectionOf b 2) 0 2
  firstCode [(secField b 0 4 == 0x494D594E, 0x01), (formatOk b, 0x02), (lengthOk true b, 0x03), (crcOk b, 0x04),
    (imageSigned b s, 0x05), (serialOk true b s, 0x06), (targetOk true b s, 0x07), (sectionsOk true b, 0x08), (criticalOk b, 0x09),
    (reservedOk true b, 0x0A), (portRulesOk (sectionOf b 1) (sectionOf b 2), 0x0B),
    ((List.range es.length).all (fun i => entryOk rows node (sectionOf b 7) c i true) && tableOk (es.map (·.1))
      && (es.isEmpty || !fbit SEC_STATUS_DEBUG_UNLOCKED s), 0x0C),
    (capacityOk (es.map (·.1)) (farCeiling rows), 0x0D)]

/-! ### Application of a full image -/

/-- Reserved sections that an accepted image skips (R34). -/
def skipped (b : List Byte) : Nat := ((secsOf b).filter (fun x => x.ty > 7)).length

/-- The SHA-384 digest of an image's bytes. -/
def imageDigest (b : List Byte) : List Byte := sha384 (b.take (secField b 8 4))

/-- A change of the metering configuration by a full image seals (R498, cause 1). -/
def loadMetering (m : List Byte) (s : State) : State :=
  let differs := s.brl.cfg != m
  { s with brl := { s.brl with cfg := m } } |> onlyIf differs (sealEvent 1)

/-- Power domains that run once an image is applied: the port groups it uses, and the stack base and core (PD36). -/
def imageDomains (rows : List (List Nat)) (s : State) : State :=
  each (List.range 24) (fun p s => if col rows p 0 ≠ 0 then setDomain (32 + p / 6) true s else s) (setDomain 36 true s)

/-- The sections of a verified image are applied (R532 step 5). Its compositions wait for the join (R542). -/
def applyImage (b : List Byte) (s : State) : State :=
  let rows := portRows (sectionOf b 1)
  let p := sectionOf b 2
  let serial := secField b 0x10 8
  let comps := (compEntries (sectionOf b 3)).map (·.1)
  let near := (List.range 24).map (fun i => (secField p (16 + 4 * i) 2, secField p (18 + 4 * i) 1))
  let s := { s with img := { s.img with
    configured := true, serial, poolId := secField b 0x20 8, poolSize := secField p 2 2, maxHops := secField p 4 1,
    masterCapable := secField p 5 1 == 1, ports := rows, neighbours := near, clockPlan := sectionOf b 4, powerPlan := sectionOf b 5,
    engine := sectionOf b 6, metering := sectionOf b 7, waiting := comps, keySlot := secField b 0x0F 1 } }
  let s := { s with sec := { s.sec with chain := imageDigest b } }
  s |> fset FAB_NODE_NODE_ID (secField p 0 2)
    |> each (List.range 24) (fun i => fset (PRT_STATUS_ROLE i) (col rows i 0))
    |> imageDomains rows |> fadd MGT_IMAGE_SKIP_CNT (skipped b)
    |> modRecord (fun c => { c with highestSerial := max c.highestSerial serial }) |> logEvent 0x0C 0 serial
    |> loadMetering (sectionOf b 7) |> showCodes

/-- One flash slot is read and verified, and its result reported. -/
def trySlot (slotB : Bool) (s : State) : Nat × State :=
  let b := if slotB then s.img.slotB else s.img.slotA
  let code := verifyFull b s
  let s := if slotB then s |> fset MGT_IMAGE_RESULT_B_RESULT code |> fset MGT_IMAGE_RESULT_B_TRIED 1
    else s |> fset MGT_IMAGE_RESULT_A_RESULT code |> fset MGT_IMAGE_RESULT_A_TRIED 1
  (code, s)

/-- Neither slot holds an image that passes (R30). -/
def noImage (s : State) : State :=
  s |> fset MGT_IMAGE_RESULT_IMAGE_FAIL_STK 1 |> updateAlert
    |> eventF 0x0001 0

/-- The image is read after the power-on self-test, and the first slot that verifies is applied (R29, R30); `next` is what
the application starts. With no valid copy of the lifetime record the Slosin stays unconfigured (R529). -/
def imageRead (next : State → State) (s : State) : State :=
  let record := fbit LRC_STATUS_PRIMARY_OK s || fbit LRC_STATUS_MIRROR_OK s
  if !s.mgt.fwUp || !s.mgt.postOk || s.img.configured || !record then s else
  let boot := fget GLB_PKG_STATUS_STRAP_BOOT s
  if boot = 2 then s else
  let first := boot == 1
  let (code, s) := trySlot first s
  if code = 0 then s |> fsetb MGT_IMAGE_RESULT_RUNNING_SLOT first |> applyImage (if first then s.img.slotB else s.img.slotA) |> next
  else
    let (code, s) := trySlot (!first) s
    if code = 0 then s |> fsetb MGT_IMAGE_RESULT_RUNNING_SLOT (!first) |> applyImage (if first then s.img.slotA else s.img.slotB) |> next
    else noImage s

end Sys2Proof.Machine
end

