-- ==== Sys2Proof/Machine/Keys.lean ====
section
/-! DEFINITION. Composition keys (R479, R483, R484). -/

namespace Sys2Proof.Machine

/-- Keep SEC_KEY_LIVE in step with the key store. -/
def showKeys (s : State) : State :=
  fset SEC_KEY_LIVE (s.sec.keys.foldl (fun a k => a ||| 2 ^ k.1) 0) s

/-- Destroy the key of a slot (R484). -/
def destroyKey (slot : Nat) (s : State) : State :=
  showKeys { s with sec := { s.sec with keys := kdel s.sec.keys slot } }

/-- Generate a composition's key in its slot (R55, R479). -/
def generateKey (c : Comp) (s : State) : State :=
  let n := kgetD s.sec.gens c.cmpId 0 + 1
  let k : KeySlot := { cmpId := c.cmpId, key := s.sec.made }
  { s with sec := { s.sec with keys := kput s.sec.keys c.keySlot k, made := s.sec.made + 1, gens := kput s.sec.gens c.cmpId n } }
    |> showKeys |> finc (SEC_EVENT_CNT 3)

/-- Show KEY_GEN of a composition (R473). -/
def showKeyGen (c : Comp) (s : State) : State :=
  fset (CMP_SEC_BIND_KEY_GEN c.slot) (min 255 (kgetD s.sec.gens c.cmpId 0)) s

/-- The key store holds a key made for this composition in its slot (R483). -/
def keyMatches (c : Comp) (s : State) : Bool := (kget? s.sec.keys c.keySlot).any (fun k => k.cmpId == c.cmpId)

/-- The entropy source fails its health tests (R479). -/
def entropyFailed (s : State) : State := s |> fset SEC_STATUS_ENTROPY_STK 1 |> eventF 0x0051 0

/-- One more binding change of a composition, saturating (R491). -/
def bindEpoch (slot : Nat) (s : State) : State :=
  fset (CMP_SEC_BIND_BIND_EPOCH slot) (min (2 ^ 32 - 1) (fget (CMP_SEC_BIND_BIND_EPOCH slot) s + 1)) s

end Sys2Proof.Machine
end

