-- ==== Sys2Proof/Machine/Delta.lean ====
section
/-! DEFINITION. Composition deltas (R42 to R55): arrival, verification, holds and drains, and the commit. -/

namespace Sys2Proof.Machine

/-! ### Verification (R39, R41, R43) -/

/-- The entries of a delta that are to be present. -/
def presentEntries (c : List Byte) : List Comp := ((compEntries c).filter (fun e => e.2 ≠ 0)).map (·.1)

/-- The IDs of the entries that remove. -/
def removedIds (c : List Byte) : List Nat := ((compEntries c).filter (fun e => e.2 = 0)).map (·.1.cmpId)

/-- The compositions once the delta is applied. -/
def resulting (c : List Byte) (s : State) : List Comp :=
  let ids := (compEntries c).map (·.1.cmpId)
  s.comps.filter (fun x => !ids.contains x.cmpId) ++ presentEntries c

/-- The delta changes a field of an existing composition that must not change (R43). -/
def forbiddenChange (c : List Byte) (s : State) : Bool :=
  (presentEntries c).any (fun n => match compById n.cmpId s with
    | some o => o.slot != n.slot || o.keySlot != n.keySlot || o.software != n.software || o.tenantTag != n.tenantTag
        || o.harvestEn != n.harvestEn
    | none => false)

/-- The delta creates a composition, which needs a key. -/
def creates (c : List Byte) (s : State) : Bool := (presentEntries c).any (fun n => (compById n.cmpId s).isNone)

/-- No CMP_ID twice, and every removal names a present composition (R39). -/
def idsOk (c : List Byte) (s : State) : Bool :=
  let ids := (compEntries c).map (·.1.cmpId)
  ids.eraseDups.length == ids.length && (removedIds c).all (fun i => (compById i s).isSome)

/-- The METERING section in force once the delta is applied. -/
def meteringAfter (b : List Byte) (s : State) : List Byte := (sect? b 7).getD s.brl.cfg

/-- Verification of a delta: the code of R41. `entropyOk`: the entropy source passes its health tests (R479). -/
def verifyDelta (b : List Byte) (entropyOk : Bool) (s : State) : Nat :=
  let c := sectionOf b 3
  let met := meteringAfter b s
  let after := resulting c s
  let far := (s.mem.expanders.map (·.capacity)).sum
  firstCode [(secField b 0 4 == 0x494D594E, 0x01), (formatOk b, 0x02), (lengthOk false b, 0x03), (crcOk b, 0x04),
    (imageSigned b s, 0x05), (serialOk false b s, 0x06), (targetOk false b s, 0x07), (sectionsOk false b, 0x08), (criticalOk b, 0x09),
    (reservedOk false b, 0x0A),
    (idsOk c s && (List.range (entryCount c)).all (fun i => !entryRead false c i || entryOk s.img.ports (myNode s) met c i false)
      && tableOk after && after.all (fun x => secField met (32 * x.meterBinding) 1 % 2 == 1)
      && (!creates c s || (entropyOk && !fbit SEC_STATUS_DEBUG_UNLOCKED s)), 0x0C),
    (capacityOk after far, 0x0D), (s.img.configured && secField b 0x30 8 == s.img.serial, 0x0E), (!forbiddenChange c s, 0x0F),
    (!(presentEntries c).any (fun n => (compById n.cmpId s).any (fun o => o.state == .failed)), 0x11)]

/-! ### What leaves (R47 to R49) -/

/-- The running composition that an entry names. -/
def runningOf (n : Comp) (s : State) : Option Comp := compById n.cmpId s

/-- Capacity leaves with this entry, a composition goes, or its mapping changes. -/
def needsDrain (e : Comp × Bool) (s : State) : Bool :=
  match runningOf e.1 s with
  | none => false
  | some o => !e.2 || e.1.nearBytes < o.nearBytes || e.1.farBytes < o.farBytes || mappingChanged o e.1

/-- Step 4 runs: capacity leaves, or a composition is added or removed. -/
def needsMarking (e : Comp × Bool) (s : State) : Bool :=
  match runningOf e.1 s with
  | none => true
  | some o => !e.2 || e.1.nearBytes < o.nearBytes || e.1.farBytes < o.farBytes || e.1.harvestReserve < o.harvestReserve

/-- A pool line of a composition lies in what leaves, at this member. -/
def lineLeaves (c : Comp) (line : Nat) (s : State) : Bool :=
  match splitPa c (line * 64) with
  | some (i, l) => c.members[i]? == some (myNode s) && isLeaving c l s
  | none => false

/-- Lines of a composition in the directory of this member that leave. -/
def leavingLines (c : Comp) (s : State) : List Nat :=
  ((s.coh.dir.filter (fun e => e.1 / 2 ^ 50 == c.slot)).map (fun e => e.1 % 2 ^ 50)).filter (fun l => lineLeaves c l s)

/-- The recalls of step 3 for one entry (R49, R50), under hardware coherence. -/
def recallEntry (e : Comp × Bool) (s : State) : State :=
  match runningOf e.1 s with
  | none => s
  | some c =>
    if c.software then s else
    let all := !e.2 || mappingChanged c e.1
    let kind (l : Nat) : RKind :=
      let off := ((splitPa c (l * 64)).map (·.2)).getD 0
      let stays := e.2 && (if off < farWindow then off < e.1.nearBytes else off - farWindow < e.1.farBytes)
      if stays then .drop else .discard
    let s := each (leavingLines c s) (fun l s => recallLine (kind l) c.slot l s) s
    if all then each ((s.coh.filter.filter (fun f => f.1 / 2 ^ 50 == c.slot)).map (fun f => f.1 % 2 ^ 50)) (filterEvict c.slot) s else s

/-- Sluices that leave a composition with this entry. -/
def leavingSluices (e : Comp × Bool) (s : State) : List Nat :=
  match runningOf e.1 s with
  | none => []
  | some o =>
    let stays (k : Nat) : Bool := e.2 && e.1.sluiceFirst ≤ k && k < e.1.sluiceFirst + e.1.sluiceCount
    let live := s.slc.sluices.map (·.1)
    live.filter (fun k => o.sluiceFirst ≤ k && k < o.sluiceFirst + o.sluiceCount && !stays k)

/-- A descriptor touches leaving capacity of its composition. -/
def touchesLeaving (d : Desc) (s : State) : Bool :=
  match compAt d.slot s with
  | none => false
  | some c => d.runs.any (fun r => match r.target with
      | .pool pa => match splitPa c pa, splitPa c (pa + r.len - 1) with
        | some (i, l), some (j, m) =>
          (c.members[i]? == some (myNode s) && isLeaving c l s) || (c.members[j]? == some (myNode s) && isLeaving c m s)
            || (r.len > frameBytes && (List.range (r.len / frameBytes)).any (fun k =>
                match splitPa c (pa + k * frameBytes) with
                | some (i, l) => c.members[i]? == some (myNode s) && isLeaving c l s
                | none => false))
        | _, _ => false
      | _ => false)

/-- A started descriptor has transfers in flight: accesses, pieces, or a command that waits for its transfers. -/
def descFlying (d : Desc) (s : State) : Bool :=
  d.started && d.phase != .finished && d.phase != .skipped &&
    (d.phase == .waiting || s.mem.tier.any (fun a => a.desc == d.id) || s.pan.pieces.any (fun p => p.desc == d.id))

/-- Transfers in flight on leaving capacity: transactions of leaving lines, and started descriptors. -/
def inFlightLeaving (s : State) : Bool :=
  s.comps.any (fun c => (leavingLines c s).any (fun l => (getDir c.slot l s).txn.isSome)) ||
    s.slc.descs.any (fun d => descFlying d s && touchesLeaving d s)

/-! ### The commit -/

/-- Take a port out of a composition's agent entries: VALID and the decoder go (R393, R557). -/
def clearAgents (slot : Nat) (ports : List Nat) (s : State) : State :=
  each ports (fun p s => each (List.range 16) (fun k s =>
    if fbit (PRT_AGENT_VALID p k) s && fget (PRT_AGENT_SLOT p k) s == slot then
      { s with prt := { s.prt with hdm := kdel s.prt.hdm (p * 16 + k) } } |> fset (PRT_AGENT_VALID p k) 0
    else s) s) s

/-- Mark frames never-written (R54). -/
def freeNear (l : List Nat) (s : State) : State := each l (fun f s => markNeverRange (f * frameBytes) frameBytes s) s

/-- See `freeNear`. -/
def freeFars (l : List (Option Nat)) (s : State) : State :=
  each l (fun f s => match f with | some n => markNeverRange (farFrameAddr n) frameBytes s | none => s) s

/-- Versioned regions of a composition that overlap what an entry takes away end (R54). -/
def endRegions (o : Comp) (near far : Nat) (all : Bool) (s : State) : State :=
  each (s.hv.regions.filter (fun r => r.slot == o.slot)) (fun r s =>
    let l := ((splitPa o r.base).map (·.2)).getD 0
    let hit := if l < farWindow then near < l + r.length else far + farWindow < l + r.length
    if all || hit then endRegion o.slot r.base s else s) s

/-- The pool address at which a mapping changed from `o` to `n` reaches the same byte of this member: contents stay at
their local offsets (R49). None where `n` reaches it no more. Assumption 90. -/
def rebase (o n : Comp) (pa : Nat) (s : State) : Option Nat :=
  match splitPa o pa, memberIndex n (myNode s) with
  | some (i, l), some j => if o.members[i]? == some (myNode s) && l < share n then some (j * share n + l) else none
  | _, _ => none

/-- Regions and views of slot `slot` follow their bytes over a change of mapping; a region no longer reached ends. -/
def rebaseRegions (slot : Nat) (o n : Comp) (s : State) : State :=
  if !mappingChanged o n then s else
  let lost := s.hv.regions.filter (fun r => r.slot == slot && (rebase o n r.base s).isNone)
  let s := each lost (fun r s => endRegion slot r.base s) s
  { s with hv := { s.hv with
      regions := s.hv.regions.map (fun r => if r.slot == slot then { r with base := (rebase o n r.base s).getD r.base } else r),
      views := s.hv.views.map (fun v => if v.slot == slot then { v with base := (rebase o n v.base s).getD v.base } else v) } }

/-- Copies that tiles hold of lines that leave are dropped: a later write-back is discarded (R48, R50). -/
def dropLeaving (c : Comp) (s : State) : State :=
  let keep (k : Nat) : Bool := k / 2 ^ 50 % 64 != c.slot || !lineLeaves c (k % 2 ^ 50) s
  let lines := leavingLines c s
  { s with coh := { s.coh with
      copies := kkeep s.coh.copies keep,
      dir := kkeep s.coh.dir (fun k => k / 2 ^ 50 != c.slot || !lines.contains (k % 2 ^ 50)) } } |> showDir c.slot

/-- The region records of a composition: advice and heat. -/
def forgetRegions (slot : Nat) (s : State) : State :=
  { s with mem := { s.mem with advice := kkeep s.mem.advice (fun k => k / 2 ^ 26 != slot),
                               heat := kkeep s.mem.heat (fun k => k / 2 ^ 26 != slot) } }

/-- A composition is removed (R54 to R56). -/
def removeComp (o : Comp) (s : State) : State :=
  let s := s |> endRegions o 0 0 true
  let s := { s with
    hv := { s.hv with views := s.hv.views.filter (fun v => v.slot != o.slot), warned := kdel s.hv.warned o.slot,
                      armed := kkeep s.hv.armed (fun k => k / 256 != o.slot), dead := kkeep s.hv.dead (fun k => k / 256 != o.slot) },
    engs := { s.engs with colls := kkeep s.engs.colls (fun k => k / 65536 != o.slot) },
    img := { s.img with kept := s.img.kept.filter (fun c => c.cmpId != o.cmpId) },
    sec := { s.sec with gens := kdel s.sec.gens o.cmpId } }
  s |> each (leavingSluices (o, false) s) sluiceLeaves |> dropHoldings o.slot |> killAsids (fun a => a / 1024 == o.slot)
    |> clearAgents o.slot (List.range 24) |> freeNear (o.near ++ o.resvNear) |> freeFars (o.far ++ o.resvFar) |> forgetRegions o.slot
    |> destroyKey o.keySlot |> meterRemove o
    |> (fun s => { s with comps := s.comps.filter (fun c => c.cmpId != o.cmpId) })
    |> showState o.slot |> showOffer o.slot

/-- The registers of a composition's window, at their reset values. -/
def freshWindow (slot : Nat) (s : State) : State :=
  { s with regs := s.regs.filter (fun e => e.1 / 8 / 4096 != 256 + slot) }

/-- A composition is created (R55, R56); its frames are allotted after this. -/
def createComp (n : Comp) (s : State) : State :=
  let s := { s with comps := s.comps ++ [{ n with state := .active }] }
  s |> freshWindow n.slot |> generateKey n |> showKeyGen n |> meterCreate n

/-- The bindings of a composition change (R491). -/
def bindingChanged (o n : Comp) : Bool :=
  o.portMask != n.portMask || o.members != n.members || o.hostAgents != n.hostAgents || o.sluiceFirst != n.sluiceFirst
    || o.sluiceCount != n.sluiceCount || o.hostCache != n.hostCache

/-- A composition takes its new entry (R43, R56): frames that leave are marked; those that come are allotted after this. -/
def replaceComp (o n : Comp) (s : State) : State :=
  let nf := n.nearBytes / frameBytes
  let ff := n.farBytes / frameBytes
  let rf := n.harvestReserve / frameBytes
  let rn := min rf o.resvNear.length
  let s := s |> endRegions o n.nearBytes n.farBytes false |> rebaseRegions o.slot o n
  let s := each (leavingSluices (n, true) s) sluiceLeaves s
  let s := dropLeaving o s
  let s := s |> freeNear (o.near.drop nf ++ o.resvNear.drop rn) |> freeFars (o.far.drop ff ++ o.resvFar.drop (rf - rn))
  let gone := (List.range 24).filter (fun p => bitAt o.portMask p && !bitAt n.portMask p)
  let st := if o.state = .failed then .failed else .active
  let c := { n with state := st, near := o.near.take nf, far := o.far.take ff, resvNear := o.resvNear.take rn,
                    resvFar := o.resvFar.take (rf - rn) }
  let s := { s with comps := s.comps.map (fun x => if x.cmpId == o.cmpId then c else x) }
  s |> clearAgents o.slot gone |> onlyIf (bindingChanged o n) (bindEpoch o.slot)

/-- One entry of the delta. -/
def applyEntry (e : Comp × Bool) (s : State) : State :=
  match runningOf e.1 s with
  | some o => if e.2 then replaceComp o e.1 s else removeComp o s
  | none => if e.2 then createComp e.1 s else s

/-- Near frames that a window lacks (R65). -/
def growNear (slot : Nat) (s : State) : State :=
  match (frameHolders s).find? (fun c => c.slot == slot) with
  | none => s
  | some c =>
    let l := takeNear (nearUsed s) (c.nearBytes / frameBytes - c.near.length)
    s |> freeNear l |> modHolder slot (fun c => { c with near := c.near ++ l, far := c.far ++ List.replicate (c.farBytes / frameBytes - c.far.length) none })

/-- Frames that a reserve lacks: the lowest free near frames, then far frames (R103). -/
def growReserve (slot : Nat) (s : State) : State :=
  match (frameHolders s).find? (fun c => c.slot == slot) with
  | none => s
  | some c =>
    let want := c.harvestReserve / frameBytes - (c.resvNear.length + c.resvFar.length)
    let l := takeNear (nearUsed s) want
    s |> freeNear l
      |> modHolder slot (fun c => { c with resvNear := c.resvNear ++ l, resvFar := c.resvFar ++ List.replicate (want - l.length) none })

/-- Frames for every composition in a list, windows before reserves (R65, R103). -/
def growAll (slots : List Nat) (s : State) : State := s |> each slots growNear |> each slots growReserve

/-- The delta changes METERING or a METER_BINDING (R53). -/
def meteringChanged (d : Staged) (s : State) : Bool :=
  d.metering.any (· != s.brl.cfg) ||
    d.entries.any (fun e => e.2 && (runningOf e.1 s).any (fun o => o.meterBinding != e.1.meterBinding))

/-- The delta commits (R45, R47 steps 5 and 6). -/
def deltaCommit (s : State) : State :=
  match s.img.staged with
  | none => s
  | some d =>
    let seals := meteringChanged d s
    let digest := imageDigest s.img.deltaBuf
    let slots := (d.entries.filter (·.2)).map (·.1.slot)
    let s := each (d.entries.filter (fun e => !e.2)) applyEntry s
    let s := each (d.entries.filter (·.2)) applyEntry s
    let s := { s with img := { s.img with serial := d.serial, engine := d.engine.getD s.img.engine, metering := d.metering.getD s.img.metering,
                                          deltaPhase := .idle, deltaBuf := [], staged := none } }
    let s := { s with brl := { s.brl with cfg := d.metering.getD s.brl.cfg },
                      sec := { s.sec with chain := sha384 (s.sec.chain ++ digest) } }
    s |> growAll slots |> each slots allotFar |> each slots showUse
      |> modRecord (fun c => { c with highestSerial := max c.highestSerial d.serial }) |> logEvent 0x0C 0 d.serial
      |> (fun s => each s.comps (fun c s => s |> showState c.slot |> showOffer c.slot) s)
      |> onlyIf seals (sealEvent 2) |> fset MGT_IMAGE_RESULT_DELTA_RESULT 0 |> eventF 0x0002 0 |> releaseDelta

/-! ### The steps (R47) -/

/-- A reserve would fall below what live harvests hold (R44). -/
def reserveShort (d : Staged) (s : State) : Bool :=
  d.entries.any (fun e => e.2 && (runningOf e.1 s).any (fun o =>
    e.1.harvestReserve < o.harvestReserve && e.1.harvestReserve / frameBytes * 512 < blocksUsed o.slot s))

/-- Steps 2 and 3 are over: the check of R44, then step 4 or the commit. -/
def deltaDrained (s : State) : State :=
  match s.img.staged with
  | none => s
  | some d =>
    if reserveShort d s then s |> rejectDelta 0x0D |> releaseDelta
    else if d.entries.any (fun e => needsMarking e s) then
      { s with img := { s.img with deltaPhase := .marking } }
    else deltaCommit s

/-- Step 1 has passed: stage, and begin the holds where step 3 runs. -/
def deltaStage (b : List Byte) (s : State) : State :=
  let d : Staged := { serial := secField b 0x10 8, base := secField b 0x30 8,
                      entries := (compEntries (sectionOf b 3)).map (fun e => (e.1, e.2 != 0)),
                      engine := sect? b 6, metering := sect? b 7 }
  let s := { s with img := { s.img with staged := some d, deltaBuf := b } } |> fadd MGT_IMAGE_SKIP_CNT (skipped b)
  let s := each d.entries (fun e s => match runningOf e.1 s with
    | some o => if o.state = .active then setCState o.slot .changing s else s
    | none => s) s
  if d.entries.any (fun e => needsDrain e s) then
    each d.entries recallEntry { s with img := { s.img with deltaPhase := .draining } }
  else deltaDrained s

/-- A delta is being applied. -/
def deltaBusy (s : State) : Bool := s.img.deltaPhase == .draining || s.img.deltaPhase == .marking

/-- A delta command that finds another delta being applied (R46). -/
def refuseBusy (m : MgtReq) (s : State) : State :=
  s |> answer m 1 [] |> fset MGT_IMAGE_RESULT_DELTA_RESULT 0x10 |> fset MGT_IMAGE_RESULT_DELTA_FAIL_STK 1 |> eventD 0x0003 0 0x10

/-- The bytes received so far are discarded. -/
def discardDelta (s : State) : State := { s with img := { s.img with deltaBuf := [], deltaPhase := .idle } }

/-- DELTA_DATA (R521). -/
def deltaData (m : MgtReq) (off : Nat) (bytes : List Byte) (s : State) : State :=
  if deltaBusy s then refuseBusy m s
  else if off ≠ s.img.deltaBuf.length || bytes.length > 1024 then s |> discardDelta |> answer m 2 []
  else { s with img := { s.img with deltaBuf := s.img.deltaBuf ++ bytes, deltaPhase := .receiving } } |> answer m 0 []

/-- DELTA_END (R521): the delta is verified and its steps begin. -/
def deltaEnd (m : MgtReq) (len : Nat) (entropyOk : Bool) (s : State) : State :=
  if deltaBusy s then refuseBusy m s
  else if len ≠ s.img.deltaBuf.length then s |> discardDelta |> answer m 2 []
  else
    let b := s.img.deltaBuf
    let s := answer m 0 [] s
    let code := verifyDelta b entropyOk s
    let bad := code == 0x0C && !entropyOk && verifyDelta b true s == 0
    let s := onlyIf bad entropyFailed s
    if code = 0 then deltaStage b s else rejectDelta code s

/-- DELTA_DRAIN_DONE: nothing is left in flight on what leaves. -/
def drainDone (s : State) : State :=
  if s.img.deltaPhase = .draining && !inFlightLeaving s then deltaDrained s else releaseDelta s

/-- DELTA_DRAIN_TIMEOUT: what is unfinished at the Max of step 3 ends with 0x12 PERMISSION. -/
def drainTimeout (s : State) : State :=
  if s.img.deltaPhase = .draining then
    let late := (s.slc.descs.filter (fun d => descFlying d s && touchesLeaving d s)).map (·.id)
    s |> each late (fun id s => endWork id 0x12 s)
      |> (fun s => each s.comps (fun c s => each (leavingLines c s) (fun l s =>
            match (getDir c.slot l s).txn with
            | some t => each (t.await.map (·.1)) (awaitLost c.slot l) s
            | none => s) s) s)
      |> deltaDrained
  else releaseDelta s

/-- DELTA_MARKING_DONE: step 4 is over; the delta commits. -/
def markingDone (s : State) : State := if s.img.deltaPhase = .marking then deltaCommit s else s

/-- DELTA_DATA. -/
def execDeltaData (m : MgtReq) (off : BitVec 32) (bytes : List Byte) (s : State) := ok (mgtCmd m (deltaData m off.toNat bytes) s)
/-- DELTA_END. -/
def execDeltaEnd (m : MgtReq) (len : BitVec 32) (entropyOk : Bool) (s : State) := ok (mgtCmd m (deltaEnd m len.toNat entropyOk) s)
/-- DELTA_DRAIN_DONE. -/
def execDeltaDrainDone (s : State) := ok (drainDone s)
/-- DELTA_DRAIN_TIMEOUT. -/
def execDeltaDrainTimeout (s : State) := ok (drainTimeout s)
/-- DELTA_MARKING_DONE. -/
def execDeltaMarkingDone (s : State) := ok (markingDone s)

end Sys2Proof.Machine
end

