-- ==== Sys2Proof/Machine/Rake.lean ====
section
/-! DEFINITION. The Rake engine (chapter 13): SEARCH with its deadline, APPEND and DELETE. -/

namespace Sys2Proof.Machine

/-! ### Bins (R330, R331, R338) -/

/-- A snapshot of a bin's entry. -/
structure BinEnt where
  sk : Nat
  ids : Nat
  tomb : Nat
  cap : Nat
  count : Nat
  bit : Bool
  deriving DecidableEq, Repr

/-- Read a bin's entry. -/
def readBin (r : BitVec 1024) (b : Nat) : Eng BinEnt := do
  let (bs, bit) ← readVa (raTblVa r + 32 * b) 32
  let f (o n : Nat) : Nat := leNat ((bs.drop o).take n)
  return ⟨f 0 8, f 8 8, f 16 8, f 24 4, f 28 4, bit⟩

/-- The entry is BAD_BIN. -/
def badBin (r : BitVec 1024) (e : BinEnt) : Bool :=
  e.count > e.cap || e.sk + e.cap * raSkBytes r > raArenaLen r || e.ids + 8 * e.cap > raArenaLen r
    || e.tomb + (e.cap + 7) / 8 > raArenaLen r || e.sk % 256 != 0 || e.ids % 8 != 0 || e.tomb % 8 != 0

/-- A slot as it was scanned: sketch and its mark, ID, whether it is deleted, whether the filter allows it, and the mark of
its ID, tombstone and filter lines. -/
structure SlotD where
  bin : Nat
  slot : Nat
  sk : Nat
  skBit : Bool
  id : Nat
  dead : Bool
  allowed : Bool
  bit : Bool
  deriving DecidableEq, Repr

/-- Read slot `j` of a bin. No sketch is read under FULL_RERANK. -/
def readSlot (r : BitVec 1024) (b : Nat) (e : BinEnt) (j : Nat) : Eng SlotD := do
  let (sk, c0) ← if raFull r then pure (0, false) else readNum (raArena r + e.sk + j * raSkBytes r) (raSkBytes r)
  let (id, c1) ← readNum (raArena r + e.ids + 8 * j) 8
  let (tb, c2) ← readNum (raArena r + e.tomb + j / 8) 1
  let (al, c3) ← if !raFilter r then pure (true, false)
    else if id ≥ raFiltLen r || id ≥ raVecRows r then pure (false, false)
    else do
      let (v, m) ← readNum (raFiltVa r + id / 8) 1
      pure (bitAt v (id % 8), m)
  return ⟨b, j, sk, c0, id, bitAt tb (j % 8), al, c1 || c2 || c3⟩

/-- Read `n` slots of a bin from `j` on. -/
def readSlots (r : BitVec 1024) (b : Nat) (e : BinEnt) : Nat → Nat → Eng (List SlotD)
  | 0, _ => pure []
  | n + 1, j => do
    let x ← readSlot r b e j
    return x :: (← readSlots r b e n (j + 1))

/-- A bin as a descriptor has read it. -/
structure BinD where
  ent : BinEnt
  bad : Bool
  slots : List SlotD

/-- Read each bin of a list once. -/
def readBins (r : BitVec 1024) : List Nat → KMap BinD → Eng (KMap BinD)
  | [], m => pure m
  | b :: t, m => do
    if kmem' m b then readBins r t m else
    let e ← readBin r b
    engMod (finc (ENG_RAK_EVENT_CNT 5))
    let bad := badBin r e
    let sl ← if bad then pure [] else readSlots r b e e.count 0
    if !raFull r then engBytes (sl.length * raSkBytes r)
    readBins r t (kput m b { ent := e, bad, slots := sl })
where
  /-- The bin has been read. -/
  kmem' (m : KMap BinD) (b : Nat) : Bool := (kget? m b).isSome

/-! ### Scores (R340, R341) -/

/-- Read a vector: its elements as binary32, its flags, and whether any line was bittern. -/
def readVector (r : BitVec 1024) (va : Nat) : Eng (List Nat × Nat × Bool) := do
  let bs ← readMarked va (raRowBytes r)
  let vs := (sliceElems (fmtBits (raFmt r)) (raD r) 0 bs).map (fun e => readElem (raFmt r) e.1)
  return (vs.map (·.1), vs.foldl (fun m v => m ||| v.2) 0, bs.any (·.2))

/-- The score of a vector against a query, and its flags. -/
def score (metric : Nat) (q v : List Nat) : Nat × Nat :=
  let (a, fl) := (q.zip v).foldl (fun (a, fl) p =>
    let (d, e, f) := if metric = 0 then
        let (d, f) := fsub32 p.1 p.2
        (d, d, f)
      else (p.1, p.2, 0)
    let (t, g) := fmul32 d e
    (accTerm t false a, fl ||| f ||| g)) (({} : Accum), 0)
  let (v, i) := accValue a
  let (b, f) := fenc b32 0 0 v
  (b, fl ||| f ||| i)

/-- `a` ranks nearer than `b`: by score, NaN last. -/
def nearer (metric a b : Nat) : Bool :=
  let x := fdec b32 a
  let y := fdec b32 b
  if isNanV x then false else if isNanV y then true
  else if metric = 0 then ltV x y else ltV y x

/-- Keys in ascending order. -/
def keyLt : List Nat → List Nat → Bool
  | a :: x, b :: y => a < b || (a == b && keyLt x y)
  | [], _ :: _ => true
  | _, _ => false

/-- `a` comes before `b`: the nearer score, then the smaller key. -/
def ranks (metric : Nat) (a b : Nat × List Nat) : Bool :=
  nearer metric a.1 b.1 || (!nearer metric b.1 a.1 && keyLt a.2 b.2)

/-- Insert into a sorted list. -/
def insertBy {α : Type} (lt : α → α → Bool) (x : α) : List α → List α
  | [] => [x]
  | y :: t => if lt x y then x :: y :: t else y :: insertBy lt x t

/-- Sort a list. -/
def sortBy {α : Type} (lt : α → α → Bool) : List α → List α
  | [] => []
  | x :: t => insertBy lt x (sortBy lt t)

/-! ### Queries (R332, R337) -/

/-- A query: its sketch and vector, the bins it probes in order, the numbers dropped from its list, and whether it depends
on bittern. -/
structure RQuery where
  sk : Nat
  vec : List Nat
  probes : List Nat
  bad : Nat
  bit : Bool
  /-- Bins it left unscanned (R346). -/
  left : Nat := 0

/-- A probe list as it is taken: numbers in range once each, in order; and how many were out of range. -/
def takeProbes (nbins : Nat) : List Nat → List Nat → List Nat × Nat
  | [], acc => (acc.reverse, 0)
  | b :: t, acc =>
    if b ≥ nbins then
      let (l, n) := takeProbes nbins t acc
      (l, n + 1)
    else takeProbes nbins t (if acc.contains b then acc else b :: acc)

/-- Read the centroids from bin `b` on: vectors, their flags, and whether any line was bittern. -/
def readCents (r : BitVec 1024) : Nat → Nat → Eng (List (List Nat) × Nat × Bool)
  | 0, _ => pure ([], 0, false)
  | n + 1, b => do
    let (v, f, c) ← readVector r (raCentVa r + b * raCentStride r)
    let (vs, g, d) ← readCents r n (b + 1)
    return (v :: vs, f ||| g, c || d)

/-- The bins whose centroids rank nearest a query, and the flags of their scores. -/
def nearBins (r : BitVec 1024) (cents : List (List Nat)) (q : List Nat) : List Nat × Nat :=
  let ss := cents.mapIdx (fun b v => (score (raMetric r) q v, b))
  let order := sortBy (fun (a c : (Nat × Nat) × Nat) => ranks (raMetric r) (a.1.1, [a.2]) (c.1.1, [c.2])) ss
  ((order.take (raProbe r)).map (·.2), ss.foldl (fun m s => m ||| s.1.2) 0)

/-- Read `n` queries from `q` on. -/
def readQueries (r : BitVec 1024) (cents : List (List Nat)) (cbit : Bool) : Nat → Nat → Nat → Eng (List RQuery × Nat)
  | 0, _, fl => pure ([], fl)
  | n + 1, q, fl => do
    let va := raSrcVa r + q * raQrec r
    let (sk, b0) ← readNum va (raSkBytes r)
    let bs ← readMarked (va + pad64 (raSkBytes r)) (4 * raD r)
    let vec := (sliceElems 32 (raD r) 0 bs).map (·.1)
    let bit := b0 || bs.any (·.2)
    let (x, fl) : RQuery × Nat ← if raAllBins r then pure ({ sk, vec, probes := List.range (raBins r), bad := 0, bit }, fl)
      else if raCentroid r then
        let (l, f) := nearBins r cents vec
        pure ({ sk, vec, probes := l, bad := 0, bit := bit || cbit }, fl ||| f)
      else do
        let ls ← readMarked (va + pad64 (raSkBytes r) + pad64 (4 * raD r)) (4 * raProbe r)
        let (l, bad) := takeProbes (raBins r) ((sliceElems 32 (raProbe r) 0 ls).map (·.1)) []
        pure ({ sk, vec, probes := l, bad, bit := bit || ls.any (·.2) }, fl)
    engConsume x.bit
    let (xs, fl) ← readQueries r cents cbit n (q + 1) fl
    return (x :: xs, fl)

/-! ### Scan and re-rank (R338 to R342) -/

/-- Count a drop of a cause. -/
def raDrop (cause n : Nat) : Eng Unit := do
  engDrop n
  engMod (fadd (ENG_RAK_DROP_CNT cause) n)

/-- Ones in a number of up to 2,048 bits. -/
def popcount (n : Nat) : Nat := (List.range 2048).foldl (fun a i => a + n / 2 ^ i % 2) 0

/-- A scanned slot with its distance to a query. -/
structure Cand where
  ham : Nat
  d : SlotD
  deriving DecidableEq, Repr

/-- The key of a candidate. -/
def Cand.key (c : Cand) : List Nat := [c.ham, c.d.id, c.d.bin, c.d.slot]

/-- The slot may be returned (R339), but for the range of its ID. -/
def live (d : SlotD) : Bool := !d.dead && d.allowed

/-- The slots of a query, scanned: its candidates, and whether it depends on bittern. The lines of a slot that could not be a
candidate are read or not, as the order of the scan has it: one free bit for each such slot. -/
def pick (r : BitVec 1024) (cs : List Cand) : Eng (List Cand × Bool) := do
  let good := cs.filter (fun c => live c.d && c.d.id < raVecRows r)
  let best := sortBy (fun a b : Cand => keyLt a.key b.key) good
  let mine := if raFull r then good else best.take (raRerank r)
  let worst := if raFull r || mine.length < raRerank r then 2048 else (mine.getLast?.map (·.ham)).getD 2048
  let bit ← go worst cs false
  return (mine, bit)
where
  /-- Count the slots whose ID, tombstone and filter lines were read. -/
  go (worst : Nat) : List Cand → Bool → Eng Bool
    | [], bit => pure bit
    | c :: t, bit => do
      let sure : Bool := c.ham ≤ worst
      let v ← if sure then pure (1 : BitVec 1) else engFree 1
      if v = 0 then go worst t (bit || c.d.skBit)
      else
        engBytes 8
        if !c.d.dead && c.d.id ≥ raVecRows r then raDrop 0 1
        go worst t (bit || c.d.skBit || c.d.bit)

/-- Score candidates: each with its score and the flags of its vector and score, and whether any row was bittern. -/
def scoreAll (r : BitVec 1024) (vec : List Nat) : List Cand → Eng (List (Cand × Nat) × Nat × Bool)
  | [] => pure ([], 0, false)
  | c :: t => do
    let (v, f, b) ← readVector r (raVecVa r + c.d.id * raVecStride r)
    engBytes (raRowBytes r)
    let (s, g) := score (raMetric r) vec v
    let (xs, h, d) ← scoreAll r vec t
    return ((c, s) :: xs, f ||| g ||| h, b || d)

/-- One entry of a result (R333). -/
def resEntry (r : BitVec 1024) : Option (Cand × Nat) → List Byte
  | some (c, s) => natLe 8 c.d.id ++ natLe 4 s ++ natLe 2 (if raFull r then 0xFFFF else c.ham) ++ natLe 2 0
  | none => natLe 8 (2 ^ 64 - 1) ++ natLe 4 0x7F800000 ++ natLe 2 0xFFFF ++ natLe 2 0

/-- The number of bins of a query that were started when its deadline passed: a free value. -/
def startedBins (n : Nat) : Eng Nat := do
  let v ← engFree 32
  return v.toNat % (n + 1)

/-- The queries as their deadline leaves them. -/
def cutQueries : List RQuery → Eng (List RQuery)
  | [] => pure []
  | x :: t => do
    let n ← startedBins x.probes.length
    return { x with probes := x.probes.take n, left := x.probes.length - n } :: (← cutQueries t)

/-- Run one query to its result. Gives the flags. -/
def runQuery (r : BitVec 1024) (forced : Bool) (m : KMap BinD) (q : Nat) (x : RQuery) : Eng Nat := do
  let left := x.left
  let bins := x.probes.filterMap (fun b => kget? m b)
  let ok := bins.filter (fun b => !b.bad)
  let bad := x.bad + (bins.length - ok.length)
  if bad > 0 then raDrop 1 bad
  if left > 0 then
    raDrop 2 left
    engMod (fset ENG_RAK_STATUS_BUDGET_CUT_STK 1)
  let slots := ok.flatMap (·.slots)
  let cs := slots.map (fun d => Cand.mk (if raFull r then 0 else popcount (x.sk ^^^ d.sk)) d)
  if !raFull r then engMod (fadd (ENG_RAK_EVENT_CNT 2) slots.length)
  let (mine, bit) ← pick r cs
  let (sc, fl, vb) ← scoreAll r x.vec mine
  engMod (fadd (ENG_RAK_EVENT_CNT 3) mine.length)
  let bit := bit || vb || x.bit || bins.any (fun b => b.ent.bit)
  engConsume bit
  let top := (sortBy (fun a b : Cand × Nat => ranks (raMetric r) (a.2, [a.1.d.id, a.1.d.bin, a.1.d.slot])
    (b.2, [b.1.d.id, b.1.d.bin, b.1.d.slot])) sc).take (raK r)
  let nf := top.any (fun c => match fdec b32 c.2 with | .fin .. => false | _ => true)
  let shown ← if ok.length < 65536 then pure ok.length else do
    let v ← engFree 16
    pure v.toNat
  let hdr := natLe 4 top.length ++ natLe 2 (b2n (left > 0) + 2 * b2n forced) ++ natLe 2 shown ++ natLe 8 slots.length
  let body := (List.range (raK r)).flatMap (fun i => resEntry r top[i]?)
  writeVa (raResVa r + q * raRrec r) (hdr ++ body) bit
  engMod (finc (ENG_RAK_EVENT_CNT 1))
  return fl ||| (if nf then fNF else 0)

/-- Run queries from `q` on. -/
def runQueries (r : BitVec 1024) (forced : Bool) (m : KMap BinD) : List RQuery → Nat → Eng Nat
  | [], _ => pure 0
  | x :: t, q => do
    let f ← runQuery r forced m q x
    return f ||| (← runQueries r forced m t (q + 1))

/-! ### SEARCH (R346, R347) -/

/-- A tile is under self-test, runs adopted work, or has a pan in substitution (R347). -/
def rakeTest (s : State) : Bool :=
  !s.pan.subst.isEmpty || (List.range 32).any (fun t => fbit (TIL_ADOPT_SELFTEST t) s || fbit (TIL_ADOPT_ADOPTING t) s)

/-- A condition of R347 holds. Whether FORCE_EXACT_MS have passed since a start or a recovery is a free bit. -/
def rakeForcing (s : State) : Bool × State :=
  if rakeTest s then (true, s) else
  let (v, s) := takeFree 1 s
  (v == 1, s)

/-- Bring FORCING up to date: done when the register is read. -/
def showForcing (s : State) : State :=
  let (b, s) := rakeForcing s
  fsetb ENG_RAK_STATUS_FORCING b s

/-- SEARCH. -/
def search (r : BitVec 1024) : Eng Unit := do
  let mut forced : Bool := false
  if raBudget r then
    let (b, s) := rakeForcing (← get).st
    engMod (fun _ => s)
    forced := b
  if forced then engMod (fun s => s |> finc (ENG_RAK_EVENT_CNT 4) |> fset ENG_RAK_STATUS_FORCED_STK 1)
  let (cents, cf, cb) ← if raCentroid r then readCents r (raBins r) 0 else pure ([], 0, false)
  let (qs, fl) ← readQueries r cents cb (raN r) 0 cf
  let e ← get
  let late := ((descOf e.id e.st).map (·.late)).getD false
  let qs ← if raBudget r && late && !forced then cutQueries qs else pure qs
  let m ← readBins r (qs.flatMap (·.probes)) []
  let g ← runQueries r forced m qs 0
  engDetail ((fl ||| g) + 32 * b2n forced + 64 * b2n (qs.any (fun x => x.left > 0)))
  if (← get).dropped > 0 then modify (fun e => { e with status := 2 })

/-- DEADLINE_EXPIRY: DEADLINE_US has passed since the descriptor started. -/
def deadline (id : Nat) (s : State) : State :=
  modDesc id (fun d =>
    if d.phase == .running && !d.worked && dEng d.raw == 4 && dOpc d.raw == 1 && raBudget d.raw then { d with late := true } else d) s

/-! ### APPEND and DELETE (R343, R344) -/

/-- Read the entry of the bin a descriptor names: a BAD_BIN one fails it. -/
def namedBin (r : BitVec 1024) : Eng BinEnt := do
  let e ← readBin r (raBin r)
  engConsume e.bit
  if badBin r e then
    engDetail 124
    throw 0x20
  return e

/-- Change one tombstone bit. -/
def setTomb (r : BitVec 1024) (e : BinEnt) (j : Nat) (dead mark : Bool) : Eng Unit := do
  let va := raArena r + e.tomb + j / 8
  let (v, _) ← readNum va 1
  let b := 2 ^ (j % 8)
  storeVa va [BitVec.ofNat 8 (v - (v &&& b) + (if dead then b else 0))] mark

/-- Write items into slots: `n` of them, from item `i` on. -/
def appendGo (r : BitVec 1024) (e : BinEnt) : Nat → Nat → Eng Unit
  | 0, _ => pure ()
  | n + 1, i => do
    let k := raSkBytes r
    let (sk, b) ← readVa (raSrcVa r + i * k) k
    let (id, c) ← readVa (raSrcVa r + raIdsAt r + 8 * i) 8
    engConsume (b || c)
    writeVa (raArena r + e.sk + (e.count + i) * k) sk (b || e.bit)
    writeVa (raArena r + e.ids + 8 * (e.count + i)) id (c || e.bit)
    setTomb r e (e.count + i) false e.bit
    appendGo r e n (i + 1)

/-- APPEND. -/
def append (r : BitVec 1024) : Eng Unit := do
  let e ← namedBin r
  let m := min (raN r) (e.cap - e.count)
  if raN r > m then raDrop 3 (raN r - m)
  appendGo r e m 0
  writeVa (raTblVa r + 32 * raBin r + 28) (natLe 4 (e.count + m)) e.bit
  engBytes (m * (raSkBytes r + 8))
  engDetail m
  if (← get).dropped > 0 then modify (fun e => { e with status := 2 })

/-- Set the tombstones of a slot list from entry `i` on. -/
def deleteGo (r : BitVec 1024) (e : BinEnt) : Nat → Nat → Nat → Eng Nat
  | 0, _, done => pure done
  | n + 1, i, done => do
    let (j, b) ← readNum (raSrcVa r + 4 * i) 4
    engConsume b
    if j ≥ e.count then
      raDrop 4 1
      deleteGo r e n (i + 1) done
    else
      setTomb r e j true (b || e.bit)
      deleteGo r e n (i + 1) (done + 1)

/-- DELETE. -/
def rakeDelete (r : BitVec 1024) : Eng Unit := do
  let e ← namedBin r
  let n ← deleteGo r e (raN r) 0 0
  engBytes (4 * n)
  engDetail n
  if (← get).dropped > 0 then modify (fun e => { e with status := 2 })

/-! ### The commands -/

/-- SEARCH (R337). -/
def execSearch (d : Nat) (inp : EngIn) (s : State) := ok (runEng 4 1 d inp search s)
/-- DEADLINE_EXPIRY (R346). -/
def execDeadlineExpiry (d : Nat) (s : State) := ok (deadline d s)
/-- APPEND (R343). -/
def execRakeAppend (d : Nat) (inp : EngIn) (s : State) := ok (runEng 4 2 d inp append s)
/-- DELETE (R344). -/
def execRakeDelete (d : Nat) (inp : EngIn) (s : State) := ok (runEng 4 3 d inp rakeDelete s)

end Sys2Proof.Machine
end

