-- ==== Sys2Proof/Machine/Package.lean ====
section
/-! DEFINITION. The package (chapter 18): straps, the rail sequencer, main power, the thermal trip, PMBus alerts. Rails:
0 VDD_CORE, 1 VDD_STK, 2 VDD_DRAM, 3 VPP_DRAM, 4 VDD_SDS, 5 VDDH_SDS. -/

namespace Sys2Proof.Machine

/-- The rails that a step of R446 powers up. -/
def stepRails : Nat → List Nat
  | 2 => [3]
  | 3 => [2, 1]
  | 4 => [4, 5]
  | 5 => [0]
  | _ => []

/-- Begin a step of the sequence. -/
def seqStep (n : Nat) (s : State) : State :=
  let on := (stepRails n).foldl (fun m r => m ||| 2 ^ r) s.pwr.railsOn
  { s with pwr := { s.pwr with seq := n, railsOn := on } }

/-- Every rail off, the sequencer stopped. -/
def railsOff (s : State) : State := { s with pwr := { s.pwr with seq := 0, railsOn := 0, railsGood := 0 } }

/-- Start the sequence. -/
def seqStart (s : State) : State := s |> railsOff |> seqStep 2

/-- A supply event (R447, R448): sent by running firmware, or latched until it runs. -/
def supplyEvent (unit : Nat) (s : State) : State :=
  if s.mgt.fwUp then eventU 0x0031 0 unit s
  else { s with mgt := { s.mgt with latched := s.mgt.latched ++ [(0x0031, unit)] } }

/-- A supply event whose rule gives no UNIT (R448). -/
def supplyEventF (s : State) : State :=
  let (u, s) := takeFree 16 s
  supplyEvent u.toNat s

/-- The events latched for the firmware are sent. -/
def deliverLatched (s : State) : State :=
  let l := s.mgt.latched
  { s with mgt := { s.mgt with latched := [] } } |> each l (fun e => eventU e.1 0 e.2)

/-- RAIL_POWER_GOOD. -/
def railGood (r : Nat) (s : State) : State :=
  let n := s.pwr.seq
  if !(stepRails n).contains r then s else
  let good := s.pwr.railsGood ||| 2 ^ r
  let s := { s with pwr := { s.pwr with railsGood := good } }
  if (stepRails n).all (fun x => bitAt good x) then seqStep (n + 1) s else s

/-- RAIL_TIMEOUT: the second failure is final (R447). -/
def railTimeout (r : Nat) (s : State) : State :=
  if !(stepRails s.pwr.seq).contains r || bitAt s.pwr.railsGood r then s else
  let n := s.pwr.seqFails + 1
  let s := railsOff s
  let s := { s with pwr := { s.pwr with seqFails := n } } |> fset GLB_PKG_STATUS_SEQ_FAIL_STK 1
  if n < 2 then s else s |> fset GLB_PKG_STATUS_FAULT 1 |> supplyEvent r

/-- SEQUENCE_RETRY: 100 ms after the first failure. -/
def sequenceRetry (s : State) : State := if s.pwr.seq = 0 && s.pwr.seqFails = 1 then seqStart s else s

/-- A retry that management orders. -/
def orderedRetry (s : State) : State :=
  if s.pwr.seq ≠ 0 || s.pwr.seqFails = 0 then s else { s with pwr := { s.pwr with seqFails := 0 } } |> seqStart

/-- PWRGD_MAIN_RISE: FAULT_N stays only for another cause. -/
def mainRise (s : State) : State :=
  let n := if s.pwr.seq = 6 then 7 else s.pwr.seq
  let hold := fbit GLB_PKG_STATUS_THERMTRIP s || s.clk.pd38 != 0 || fget CLK_STATUS_PLAN s == 3 || s.mgt.stopped
  { s with pwr := { s.pwr with seq := n, seqFails := 0 } } |> fset GLB_PKG_STATUS_PWRGD_MAIN 1 |> fsetb GLB_PKG_STATUS_FAULT hold

/-- MAIN_POWER_LOSS (R448). -/
def mainLoss (retained : Bool) (s : State) : State :=
  if !fbit GLB_PKG_STATUS_PWRGD_MAIN s then s else
  let s := s |> coreOff |> fset GLB_PKG_STATUS_PWRGD_MAIN 0
  let s := if retained then s else lose37 s
  s |> fset GLB_PKG_STATUS_MAIN_LOSS_STK 1 |> fset GLB_PKG_STATUS_FAULT 1 |> supplyEventF |> logEvent 0x0A 0 (b2n retained)

/-- THERMAL_TRIP (R443). -/
def thermalTrip (logic dram : Int) (s : State) : State :=
  if fbit GLB_PKG_STATUS_THERMTRIP s || (logic < 115 && dram < 105) then s else
  let s := s |> coreOff |> fset GLB_PKG_STATUS_THERMTRIP 1 |> fset GLB_PKG_STATUS_FAULT 1
    |> modRecord (fun c => { c with trips := c.trips + 1 })
    |> logEvent 0x06 0 (logic.toNat % 256 + dram.toNat % 256 * 256) |> eventF 0x0033 0
  { s with mgt := { s.mgt with fwUp := false } }

/-- PWRGD_AON_RISE (R441, R446). -/
def aonRise (strapId : BitVec 10) (mcap : Bool) (boot i3c : BitVec 2) (s : State) : State :=
  let s := coldReset s
  let s := { s with pwr := { s.pwr with aon := true, seqFails := 0 } }
  s |> fset GLB_PKG_STATUS_STRAP_ID strapId.toNat |> fsetb GLB_PKG_STATUS_STRAP_MCAP mcap
    |> fset GLB_PKG_STATUS_STRAP_BOOT boot.toNat |> fset GLB_PKG_STATUS_STRAP_I3C i3c.toNat |> seqStart

/-- PWRGD_AON_FALL: the package loses its supplies; everything but what is non-volatile goes. -/
def aonFall (s : State) : State :=
  let s := s |> coreOff |> lose37 |> railsOff
  { s with
    pwr := { s.pwr with aon := false },
    mgt := { s.mgt with fwUp := false, seals := [] },
    brl := { s.brl with on := false } }
  |> fset GLB_PKG_STATUS_PWRGD_MAIN 0

/-- PMB_ALERT (R445). -/
def pmbAlert (rail status : Nat) (read : Bool) (s : State) : State :=
  if read then event 0x0031 0 rail status s else pmbusFailed rail s

/-- RAIL_POWER_GOOD (R446). -/
def execRailPowerGood (r : Fin 6) (s : State) := ok (railGood r s)
/-- RAIL_TIMEOUT (R447). -/
def execRailTimeout (r : Fin 6) (s : State) := ok (railTimeout r s)
/-- SEQUENCE_RETRY (R447). -/
def execSequenceRetry (s : State) := ok (sequenceRetry s)
/-- PWRGD_MAIN_RISE (R448). -/
def execPwrgdMainRise (s : State) := ok (mainRise s)
/-- MAIN_POWER_LOSS (R448). -/
def execMainPowerLoss (retained : Bool) (s : State) := ok (mainLoss retained s)
/-- THERMAL_TRIP (R443). -/
def execThermalTrip (logic dram : Int) (s : State) := ok (thermalTrip logic dram s)
/-- PWRGD_AON_RISE (R446). -/
def execPwrgdAonRise (strapId : BitVec 10) (mcap : Bool) (boot i3c : BitVec 2) (s : State) :=
  ok (aonRise strapId mcap boot i3c s)
/-- PWRGD_AON_FALL (R442). -/
def execPwrgdAonFall (s : State) := ok (aonFall s)
/-- PMB_ALERT (R445). -/
def execPmbAlert (rail : Fin 6) (status : BitVec 16) (read : Bool) (s : State) := ok (pmbAlert rail status.toNat read s)

end Sys2Proof.Machine
end

