-- ==== Sys2Proof/Machine/Ports.lean ====
section
/-! DEFINITION. Ports (chapter 16): training, lanes, PERST_N, HDM decoders. -/

namespace Sys2Proof.Machine

/-! ### What the image makes of a port (R386 to R389) -/

/-- Field `i` of a port's PORT_ROLES entry: ROLE, BOND, LEADER, MAX_RATE, BW_CLASS_MAP. -/
def portCfg (p i : Nat) (s : State) : Nat := ((s.img.ports[p]?).getD []).getD i 0

/-- Ports of the link that a port leads: 1, 2 or 4; none for a bonded member. -/
def bondPorts (p : Nat) (s : State) : Nat :=
  match portCfg p 1 s with | 0 => 1 | 1 => 2 | 2 => 4 | _ => 0

/-- Role of a port. -/
def roleOf (p : Nat) (s : State) : Nat := fget (PRT_STATUS_ROLE p) s

/-- Power domain of a port's group. -/
def portDomain (p : Nat) : Nat := 32 + p / 6

/-- The SerDes have a reference (R394, step 1). -/
def serdesRef (s : State) : Option Nat := if xrefGood 0 s then some 0 else if xrefGood 1 s then some 1 else none

/-- A port may train: the image is verified, its domain is on, it is used and not a bonded member, its link is down, and a
device-role port's PERST_N is released (R394, R439, R543). -/
def mayTrain (p : Nat) (s : State) : Bool :=
  s.img.configured && domainOn (portDomain p) s && roleOf p s != 0 && bondPorts p s != 0
    && !fbit (PRT_STATUS_LINK_UP p) s && (serdesRef s).isSome && !(roleOf p s == 1 && kmem s.prt.perst p)

/-! ### Lanes (R396, R401) -/

/-- The lane with number `l` of port `p + off` of a link. -/
def laneKey (p off l : Nat) : Nat := (p + off) * 64 + l

/-- Lost lanes of a port. -/
def lostOf (q : Nat) (s : State) : List Nat := (s.prt.lost.filter (fun e => e.1 / 64 == q)).map (fun e => e.1 % 64)

/-- Record a lane loss: cause 1 loss of lock, 2 error ratio, 3 training; action as PRT_LANE_EVENT. -/
def laneLost (p off l cause action : Nat) (s : State) : State :=
  let q := p + off
  let w := fget (PRT_LANE_MARGIN_EYE_W q l) s
  let h := fget (PRT_LANE_MARGIN_EYE_H q l) s
  { s with prt := { s.prt with lost := kput s.prt.lost (laneKey p off l) () } }
    |> finc (PRT_EVENT_CNT p 0) |> fset (PRT_STATUS_LANE_LOSS_STK p) 1
    |> fset (PRT_LANE_EVENT_LANE q) l |> fset (PRT_LANE_EVENT_CAUSE q) cause |> fset (PRT_LANE_EVENT_ACTION q) action
    |> fset (PRT_LANE_EVENT_EYE_W q) w |> fset (PRT_LANE_EVENT_EYE_H q) h
    |> fset (PRT_LANE_MARGIN_USE q l) 2 |> onlyIf (cause != 2) (fset (PRT_LANE_MARGIN_LOCK q l) 0)
    |> logEvent 0x01 q (q + l * 2 ^ 8 + cause * 2 ^ 16 + action * 2 ^ 24 + w * 2 ^ 32 + h * 2 ^ 40)

/-- The half of a fabric port that carries x4 (R399): 0 for lanes 0 to 3, 1 for 4 to 7; none when neither holds at most one
lost lane with the ninth lane to stand in for it. -/
def x4Half (lost : List Nat) : Option Nat :=
  let spare := if lost.contains 8 then 0 else 1
  [0, 1].find? (fun h => (lost.filter (fun l => l < 8 && l / 4 == h)).length ≤ spare)

/-- The widest CXL link, as WIDTH reports it, that `n` working lanes of `ports` ports allow; 0 for none. -/
def cxlWidth (ports n : Nat) : Nat :=
  if ports ≥ 4 && n ≥ 32 then 4 else if ports ≥ 2 && n ≥ 16 then 3 else if n ≥ 8 then 2 else if n ≥ 4 then 1 else 0

/-- WIDTH that a fabric port with these lost lanes can have. -/
def fabWidth (lost : List Nat) : Nat :=
  if lost.length ≤ 1 then 2 else if lost.length = 2 && (x4Half lost).isSome then 1 else 0

/-- The data lane that the ninth lane stands in for; 15 for none. -/
def stoodIn (lost : List Nat) (width : Nat) : Nat :=
  if lost.contains 8 then 15
  else if width = 2 then (lost.head?).getD 15
  else match x4Half lost with
    | some h => (lost.find? (fun l => l / 4 == h)).getD 15
    | none => 15

/-- Show what each lane of a port is used for: 0 data, 1 parity, 2 lost, 3 off. -/
def showLanes (p : Nat) (s : State) : State :=
  let up := fbit (PRT_STATUS_LINK_UP p) s
  let w := fget (PRT_STATUS_WIDTH p) s
  each (List.range (bondPorts p s)) (fun off s =>
    let lost := lostOf (p + off) s
    let half := (x4Half lost).getD 0
    each (List.range 9) (fun l s =>
      let use :=
        if lost.contains l then 2
        else if !up then 3
        else if l = 8 then
          if roleOf p s ≠ 3 then 3 else if fbit (PRT_STATUS_PARITY_ON p) s then 1
          else if fget (PRT_STATUS_REBUILT_LANE p) s ≠ 15 then 0 else 3
        else if w = 1 then (if roleOf p s = 3 then (if l / 4 = half then 0 else 3) else if off = 0 && l < 4 then 0 else 3)
        else if off * 8 < 8 * 2 ^ (w - 2) then 0 else 3
      s |> fset (PRT_LANE_MARGIN_USE (p + off) l) use |> onlyIf (use != 2) (fsetb (PRT_LANE_MARGIN_LOCK (p + off) l) (use != 3))) s) s

/-! ### Training (R394 to R396, R474) -/

/-- What a port had under way is over. -/
def clearPort (p : Nat) (s : State) : State :=
  { s with prt := { s.prt with rebuilding := kdel s.prt.rebuilding p, retraining := kdel s.prt.retraining p,
                               recovering := kdel s.prt.recovering p, ready := kdel s.prt.ready p } }

/-- Training failed; the port retries (1 training, 2 handshake, 3 peer authentication). -/
def trainFailed (p why : Nat) (s : State) : State :=
  { s with prt := { s.prt with retry := kput s.prt.retry p why } }
    |> finc (PRT_EVENT_CNT p 2) |> fset (PRT_STATUS_DOWN_STK p) 1 |> fset (PRT_CTL_RETRAIN p) 0

/-- The port trains: steps 1 to 4 of R394. Its link comes up at PORT_UP. -/
def train (p : Nat) (t : TrainIn) (s : State) : State :=
  if !mayTrain p s then s else
  let n := bondPorts p s
  let fabric : Bool := roleOf p s == 3
  let mine (q : Nat) : Bool := p ≤ q && q < p + n
  let s := { s with prt := { s.prt with lost := kkeep s.prt.lost (fun k => !mine (k / 64)), retry := kdel s.prt.retry p } }
  let s := s |> clearPort p |> fset CLK_STATUS_SERDES_XREF ((serdesRef s).getD 0)
  let bad := (t.bad.map (fun b => (b.1.val, b.2.val))).eraseDups.filter (fun b => b.1 < n && (fabric || b.2 < 8))
  let lanes := bad.map (·.2)
  let width := if fabric then fabWidth lanes else cxlWidth n (8 * n - bad.length)
  let action := if width = 0 then 2 else if fabric && width = 2 then 3 else if width = (if fabric then 2 else cxlWidth n (8 * n)) then 0 else 1
  let s := each bad (fun b => laneLost p b.1 b.2 3 action) s
  if t.fail || width = 0 then s |> trainFailed p 1 |> eventU 0x0020 0 p
  else if fabric && (s.img.neighbours[p]? != some (t.farNode.toNat, t.farPort.toNat)) then
    s |> trainFailed p 2 |> fset (PRT_STATUS_MISWIRED_STK p) 1 |> eventU 0x0021 0 p
  else if fabric && !t.authOk then
    s |> trainFailed p 3 |> fset SEC_STATUS_PEER_AUTH_STK 1 |> finc (SEC_EVENT_CNT 2) |> eventU 0x0025 0 p
  else
    let rate := if fabric then 5 else min t.rate.toNat (portCfg p 3 s)
    let parity := fabric && lanes.isEmpty
    let row := [width, rate, b2n (!fabric && t.flit256), b2n t.unsupported, b2n parity, if fabric then stoodIn lanes width else 15]
    { s with prt := { s.prt with ready := kput s.prt.ready p row } }

/-- The link of a trained port comes up at its width and rate (R394); partners of R391. -/
def linkUp (p : Nat) (s : State) : State :=
  match kget? s.prt.ready p with
  | none => s
  | some r =>
    let flit := r.getD 2 0
    let dev := roleOf p s == 1
    let odd := (dev && flit == 0) || (roleOf p s == 2 && r.getD 3 0 == 1)
    { s with prt := { s.prt with ready := kdel s.prt.ready p } }
      |> fset (PRT_STATUS_LINK_UP p) 1 |> fset (PRT_STATUS_WIDTH p) (r.getD 0 0) |> fset (PRT_STATUS_RATE p) (r.getD 1 0)
      |> fset (PRT_STATUS_FLIT256 p) flit |> fsetb (PRT_STATUS_MEM_OFF p) (dev && flit == 0)
      |> fset (PRT_STATUS_PARITY_ON p) (r.getD 4 0) |> fset (PRT_STATUS_REBUILT_LANE p) (r.getD 5 15)
      |> fset (PRT_CTL_RETRAIN p) 0
      |> onlyIf odd (fun s => s |> fset (PRT_STATUS_UNSUPPORTED_STK p) 1 |> eventU 0x0020 0 p)
      |> onlyIf (roleOf p s == 3) (setLink p {}) |> showLanes p

/-- The link falls, with what was under way on the port. -/
def dropLink (p : Nat) (s : State) : State := s |> portFell p |> clearPort p |> showLanes p

/-- RETRAIN = 1 (R394). -/
def retrainPort (p : Nat) (s : State) : State :=
  if roleOf p s = 0 then finc GLB_IGNORED_WRITE_CNT s
  else if bondPorts p s = 0 then s
  else
    let s := s |> dropLink p |> fset (PRT_CTL_RETRAIN p) 1
    { s with prt := { s.prt with retry := kdel s.prt.retry p } }

/-! ### Losing lanes in service (R397 to R400) -/

/-- LANE_LOSS. -/
def laneLoss (p off l : Nat) (lock : Bool) (s : State) : State :=
  let cause := if lock then 1 else 2
  let use := fget (PRT_LANE_MARGIN_USE (p + off) l) s
  if !fbit (PRT_STATUS_LINK_UP p) s || off ≥ bondPorts p s || use ≥ 2 then s else
  let w := fget (PRT_STATUS_WIDTH p) s
  if w ≤ 1 then s |> laneLost p off l cause 2 |> dropLink p
  else if roleOf p s = 3 then
    if kmem s.prt.retraining p then s |> laneLost p off l cause 2 |> dropLink p
    else if (lostOf p s).isEmpty then
      let s := laneLost p off l cause 0 s
      if l = 8 then fset (PRT_STATUS_PARITY_ON p) 0 s
      else { s with prt := { s.prt with rebuilding := kput s.prt.rebuilding p () } }
    else
      let s := laneLost p off l cause 1 s
      { s with prt := { s.prt with retraining := kput s.prt.retraining p (), rebuilding := kdel s.prt.rebuilding p } }
  else
    let s := laneLost p off l cause 1 s
    { s with prt := { s.prt with recovering := kput s.prt.recovering p (kgetD s.prt.recovering p w - 1) } }

/-- LANE_REBUILT: one NAK names the last good SEQ (R398). -/
def laneRebuilt (p : Nat) (s : State) : State :=
  if !kmem s.prt.rebuilding p then s else
  { s with prt := { s.prt with rebuilding := kdel s.prt.rebuilding p } }
    |> fset (PRT_STATUS_PARITY_ON p) 0 |> fset (PRT_STATUS_REBUILT_LANE p) (((lostOf p s).find? (· < 8)).getD 15)
    |> showLanes p |> sendNakFlit p

/-- A link is narrower. -/
def narrowed (p w : Nat) (s : State) : State :=
  s |> fset (PRT_STATUS_WIDTH p) w |> fset (PRT_STATUS_DOWNGRADE_STK p) 1 |> finc (PRT_EVENT_CNT p 1)

/-- X4_RETRAIN_DONE (R399). -/
def x4Done (p : Nat) (s : State) : State :=
  if !kmem s.prt.retraining p then s else
  { s with prt := { s.prt with retraining := kdel s.prt.retraining p } } |> narrowed p 1
    |> fset (PRT_STATUS_PARITY_ON p) 0 |> fset (PRT_STATUS_REBUILT_LANE p) (stoodIn (lostOf p s) 1) |> showLanes p
    |> eventToMaster 0x0022 0 p 0

/-- PCIE_RECOVERY_DONE (R400). -/
def recoveryDone (p : Nat) (s : State) : State :=
  match kget? s.prt.recovering p with
  | none => s
  | some 0 => dropLink p s
  | some w => { s with prt := { s.prt with recovering := kdel s.prt.recovering p } } |> narrowed p w |> showLanes p

/-- The eyes of lanes are measured (R401). -/
def measureEyes (p : Nat) (eyes : List (Fin 9 × BitVec 8 × BitVec 8)) (s : State) : State :=
  each eyes (fun e s => s |> fset (PRT_LANE_MARGIN_EYE_W p e.1) e.2.1.toNat |> fset (PRT_LANE_MARGIN_EYE_H p e.1) e.2.2.toNat) s

/-! ### The function of a device-role link (R439, R557) -/

/-- Every HDM decoder of a port is uncommitted. -/
def resetFunction (p : Nat) (s : State) : State := { s with prt := { s.prt with hdm := kkeep s.prt.hdm (fun k => k / 16 != p) } }

/-- PERST_N is asserted by the host. -/
def perstAssert (p : Nat) (s : State) : State :=
  if roleOf p s ≠ 1 || bondPorts p s = 0 then s else
  { s with prt := { s.prt with perst := kput s.prt.perst p () } } |> dropLink p |> resetFunction p

/-- PERST_N is released. -/
def perstRelease (p : Nat) (s : State) : State := { s with prt := { s.prt with perst := kdel s.prt.perst p } }

/-- A host commits its HDM decoder (R557). -/
def hdmCommit (p k base size ways : Nat) (s : State) : State :=
  if !fbit (PRT_STATUS_LINK_UP p) s || roleOf p s ≠ 1 || !fbit (PRT_AGENT_VALID p k) s then s else
  let m := 2 ^ 28
  if ways = 1 && base % m = 0 && size % m = 0 && size ≥ m then
    let d : Hdm := { base, size }
    { s with prt := { s.prt with hdm := kput s.prt.hdm (p * 16 + k) d } }
  else { s with prt := { s.prt with hdm := kdel s.prt.hdm (p * 16 + k) } }

/-- PORT_TRAINING (R394). -/
def execPortTraining (p : Fin 24) (t : TrainIn) (s : State) :=
  ok (if (kget? s.prt.retry p).isNone && (kget? s.prt.ready p).isNone then train p t s else s)
/-- TRAINING_RETRY (R394, R395). -/
def execTrainingRetry (p : Fin 24) (t : TrainIn) (s : State) :=
  ok (if kget? s.prt.retry p == some 1 || kget? s.prt.retry p == some 2 then train p t s else s)
/-- PEER_AUTH_RETRY (R474). -/
def execPeerAuthRetry (p : Fin 24) (t : TrainIn) (s : State) := ok (if kget? s.prt.retry p == some 3 then train p t s else s)
/-- LANE_LOSS (R397). -/
def execLaneLoss (p : Fin 24) (off : Fin 4) (lane : Fin 9) (lock : Bool) (s : State) := ok (laneLoss p off lane lock s)
/-- LANE_REBUILT (R398). -/
def execLaneRebuilt (p : Fin 24) (s : State) := ok (laneRebuilt p s)
/-- X4_RETRAIN_DONE (R399). -/
def execX4RetrainDone (p : Fin 24) (s : State) := ok (x4Done p s)
/-- PCIE_RECOVERY_DONE (R400). -/
def execPcieRecoveryDone (p : Fin 24) (s : State) := ok (recoveryDone p s)
/-- EYE_MEASUREMENT (R401). -/
def execEyeMeasurement (p : Fin 24) (eyes : List (Fin 9 × BitVec 8 × BitVec 8)) (s : State) := ok (measureEyes p eyes s)
/-- PERST_N_ASSERT (R439). -/
def execPerstAssert (p : Fin 24) (s : State) := ok (perstAssert p s)
/-- PERST_N_RELEASE (R543). -/
def execPerstRelease (p : Fin 24) (s : State) := ok (perstRelease p s)
/-- RATE_HOLD_RELEASE (R402). -/
def execRateHoldRelease (p : Fin 24) (s : State) := ok (rateRelease p s)
/-- HDM_COMMIT (R557). -/
def execHdmCommit (p : Fin 24) (k : Fin 16) (base size : BitVec 64) (ways : BitVec 8) (s : State) :=
  ok (hdmCommit p k base.toNat size.toNat ways.toNat s)
/-- CONVENTIONAL_RESET (R557). -/
def execConventionalReset (p : Fin 24) (s : State) := ok (if roleOf p s = 1 then resetFunction p s else s)

end Sys2Proof.Machine
end

