-- ==== Sys2Proof/Machine/Ras.lean ====
section
/-! DEFINITION. Patrol scrub, layer sparing, the golden copy, conservation audits (chapter 19). -/

namespace Sys2Proof.Machine

/-! ### Layer sparing (R452 to R454) -/

/-- The spare layer; 15 for none. -/
def spareLayer (s : State) : Nat := fget RAS_STATUS_SPARE_LAYER s

/-- A layer that holds data. -/
def dataLayer (l : Nat) (s : State) : Bool := l < 13 && l != spareLayer s && !bitAt s.lr.cur.retiredLayers l

/-- A trigger for layer `l`: its copy starts, or there is no spare left. -/
def spareTrigger (l : Nat) (s : State) : State :=
  if !dataLayer l s || s.pan.sparing == some l then s
  else if spareLayer s = 15 || s.pan.sparing.isSome then s |> fset RAS_STATUS_SPARE_EXHAUST_STK 1 |> eventU 0x0043 0 l
  else { s with pan := { s.pan with sparing := some l } }
    |> fset RAS_STATUS_LAYER_SPARE_STK 1 |> fset RAS_STATUS_SPARING 1 |> eventU 0x0042 0 l

/-- Errors that count toward sparing: correctable ones of this hour, distinct vaults with uncorrectable ones of this
second. -/
def layerError (l vault : Nat) (ue : Bool) (s : State) : State :=
  if ue then
    let m := kput s.pan.layerUe (l * 4096 + vault) ()
    let s := { s with pan := { s.pan with layerUe := m } }
    if (m.filter (fun e => e.1 / 4096 == l)).length ≥ 16 then spareTrigger l s else s
  else
    let n := kgetD s.pan.layerCe l 0 + 1
    let s := { s with pan := { s.pan with layerCe := kput s.pan.layerCe l n } }
    if n > fget RAS_CTL_LAYER_CE_LIMIT s then spareTrigger l s else s

/-- The slot of the composition whose near frame holds a physical address. -/
def ownerOf (p : Nat) (s : State) : Option Nat :=
  (s.comps.find? (fun c => c.near.contains (p / frameBytes) || c.resvNear.contains (p / frameBytes))).map (·.slot)

/-- A line becomes bittern for whichever composition holds it. -/
def markPhys (line : Nat) (s : State) : State :=
  match ownerOf (line * 64) s with
  | some slot => setBittern slot line true s
  | none => { s with mem := { s.mem with bittern := kput s.mem.bittern line () } }

/-- An error that patrol scrub meets in a written near line. -/
def scrubError (e : ScrubErr) (s : State) : State :=
  if !isWritten (e.line / 64) s || e.line * 64 ≥ farBase then s else
  let s := if e.ue then s |> finc (RAS_ERR_CNT 1) |> markPhys e.line |> logUe e.layer (e.line * 64) else finc (RAS_ERR_CNT 0) s
  layerError e.layer (vaultOf (e.line * 64)) e.ue s

/-- PATROL_SCRUB_PASS. -/
def patrolPass (found : List ScrubErr) (newHour newSecond : Bool) (s : State) : State :=
  let s := if newHour then { s with pan := { s.pan with layerCe := [] } } else s
  let s := if newSecond then { s with pan := { s.pan with layerUe := [] } } else s
  s |> each found scrubError |> finc (RAS_ERR_CNT 11)

/-- LAYER_SPARE_NOW = 1 was written with LAYER in place: ignored and counted with no spare left, or for the spare. -/
def spareNow (s : State) : State :=
  let l := fget RAS_CTL_LAYER s
  if spareLayer s = 15 || l = spareLayer s || s.pan.sparing.isSome || !dataLayer l s then finc GLB_IGNORED_WRITE_CNT s
  else s |> fset RAS_CTL_LAYER_SPARE_NOW 1 |> spareTrigger l

/-- LAYER_COPY_DONE: the map switches, the failing layer retires; lines that could not be read are bittern. -/
def layerCopyDone (ue : List Nat) (s : State) : State :=
  match s.pan.sparing with
  | none => s
  | some l =>
    let old := spareLayer s
    let s := each ue (fun n s => if isWritten (n / 64) s then s |> finc (RAS_ERR_CNT 1) |> markPhys n |> logUe l (n * 64) else s) s
    { s with pan := { s.pan with sparing := none, layerCe := kdel s.pan.layerCe l, layerUe := kkeep s.pan.layerUe (fun k => k / 4096 != l) } }
      |> fset RAS_STATUS_SPARING 0 |> fset RAS_STATUS_SPARE_LAYER 15 |> fset RAS_CTL_LAYER_SPARE_NOW 0
      |> modRecord (fun c => { c with retiredLayers := c.retiredLayers ||| 2 ^ l, spareLayer := 15 })
      |> logEvent 0x04 l (l + old * 2 ^ 8)

/-! ### The golden copy (R449) -/

/-- CONFIG_GOLDEN_CHECK: `fixed` registers differed and were restored; an uncorrectable golden copy is fatal. -/
def goldenCheck (fixed : Nat) (goldenBad : Bool) (s : State) : State :=
  let s := if fixed = 0 then s else s |> fset RAS_STATUS_CFG_FIX_STK 1 |> fadd (RAS_ERR_CNT 9) fixed
  if goldenBad then fatalInternal s else s

/-! ### Audits (R463, R464) -/

/-- One failed audit, with the port or composition slot it names. -/
def auditFail (code unit : Nat) (s : State) : State :=
  if code = 0 || code > 9 then s else
  let s := if fbit RAS_STATUS_AUDIT_STK s then s else fset RAS_STATUS_AUDIT_CODE code s
  let s := s |> fset RAS_STATUS_AUDIT_STK 1 |> logEvent 0x07 unit code |> eventD 0x0044 (if code ≥ 6 then cmpIdOf unit s else 0) code
  if code = 1 then linkDown unit false s
  else if code ≤ 5 then fatalInternal s
  else s |> onlyIf (code == 9) (countGap unit 1) |> fatalComp unit

/-- CONSERVATION_AUDIT. A composition that fails abandons a delta that names it; what the delta held goes on. -/
def conservationAudit (fails : List (BitVec 8 × BitVec 8)) (s : State) : State :=
  s |> each fails (fun f => auditFail f.1.toNat f.2.toNat) |> releaseDelta

/-- FAIL = 1 was written with SLOT in place (R465). -/
def failComp (s : State) : State :=
  let slot := fget RAS_FAIL_CMD_SLOT s
  match compAt slot s with
  | none => finc GLB_IGNORED_WRITE_CNT s
  | some _ => s |> fatalComp slot |> releaseDelta

/-- PATROL_SCRUB_PASS (R451). -/
def execPatrolScrubPass (found : List ScrubErr) (newHour newSecond : Bool) (s : State) :=
  ok (patrolPass found newHour newSecond s)
/-- LAYER_COPY_DONE (R453). -/
def execLayerCopyDone (ue : List Nat) (s : State) := ok (layerCopyDone ue s)
/-- CONFIG_GOLDEN_CHECK (R449). -/
def execConfigGoldenCheck (fixed : Nat) (goldenBad : Bool) (s : State) := ok (goldenCheck fixed goldenBad s)
/-- CONSERVATION_AUDIT (R463). -/
def execConservationAudit (fails : List (BitVec 8 × BitVec 8)) (s : State) := ok (conservationAudit fails s)

end Sys2Proof.Machine
end

