-- ==== Sys2Proof/Machine/Security.lean ====
section
/-! DEFINITION. Security (chapter 20): signed commands, image keys, the debug lock, measurements, SPDM sessions. -/

namespace Sys2Proof.Machine

/-! ### Signed commands (R476) -/

/-- What a signed command answers: 0 success, 1 an error. -/
def vendorAnswer (code : Nat) (s : State) : State := emit (.record "VENDOR_DEFINED_RESPONSE" [code]) s

/-- A rejected command or DOE request (R472, R476). -/
def secReject (s : State) : State := s |> finc (SEC_EVENT_CNT 1) |> vendorAnswer 1

/-- The bytes that a command's signature covers: code, TARGET_UID, nonce, payload. -/
def signedBytes (code : Nat) (c : SigCmd) (payload : List Byte) : List Byte :=
  natLe 1 code ++ natLe 8 c.uid.toNat ++ natLe 32 c.nonce.toNat ++ payload

/-- No image key slot has been written. -/
def allEmpty (s : State) : Bool := fget SEC_STATUS_IMGKEY s == 0

/-- The conditions of R476; `unsigned`: the signature is not asked for. -/
def sigAccepted (code : Nat) (c : SigCmd) (payload : List Byte) (unsigned : Bool) (s : State) : Bool :=
  c.secured && c.fresh && !s.sec.nonces.contains (natLe 32 c.nonce.toNat) && c.uid.toNat == fget GLB_UID s &&
    (unsigned || (1 ≤ c.alg.toNat && c.alg.toNat ≤ 3 &&
      signedOk c.alg.toNat c.slot.toNat (signedBytes code c payload) (c.ecdsa ++ c.mldsa) s))

/-- Run a signed command: `can` is what else must hold of it. A nonce is used once. -/
def sigCmd (code : Nat) (c : SigCmd) (payload : List Byte) (unsigned can : Bool) (f : State → State) (s : State) : State :=
  if !s.mgt.fwUp then s
  else if sigAccepted code c payload unsigned s && can then
    { s with sec := { s.sec with nonces := s.sec.nonces ++ [natLe 32 c.nonce.toNat] } } |> f |> vendorAnswer 0
  else secReject s

/-! ### Image keys (R475 to R478) -/

/-- State of an image key slot: 0 EMPTY, 1 ACTIVE, 2 REVOKED. -/
def imgKeyState (slot : Nat) (s : State) : Nat := bitsOf (fget SEC_STATUS_IMGKEY s) (2 * slot) 2

/-- Set it, in OTP and in SEC_STATUS. -/
def setImgKey (slot v : Nat) (s : State) : State :=
  let w := fget SEC_STATUS_IMGKEY s
  let n := w - imgKeyState slot s * 4 ^ slot + v * 4 ^ slot
  { s with sec := { s.sec with otpState := n } } |> fset SEC_STATUS_IMGKEY n

/-- Load what OTP holds into SEC_STATUS, after a cold reset. -/
def loadOtp (s : State) : State :=
  s |> fset SEC_STATUS_IMGKEY s.sec.otpState |> fsetb SEC_STATUS_REQUIRE_PQ s.sec.otpPq

/-- SLOT_WRITE. While every slot is EMPTY no signature is asked for: taking ownership. -/
def slotWrite (c : SigCmd) (slot : Nat) (ecdsa mldsa : List Byte) (s : State) : State :=
  let ok := slot ≤ 3 && imgKeyState slot s == 0 && ecdsa.length == 97 && mldsa.length == 2592
  sigCmd 0x01 c (natLe 1 slot ++ ecdsa ++ mldsa) (allEmpty s) ok (fun s =>
    { s with sec := { s.sec with imgKeys := kput s.sec.imgKeys slot (ecdsa, mldsa) } } |> setImgKey slot 1) s

/-- ACTIVE image key slots. -/
def activeSlots (s : State) : List Nat := (List.range 4).filter (fun i => imgKeyState i s == 1)

/-- SLOT_REVOKE: the last ACTIVE slot stays. -/
def slotRevoke (c : SigCmd) (slot : Nat) (s : State) : State :=
  let ok := slot ≤ 3 && imgKeyState slot s == 1 && 1 < (activeSlots s).length
  sigCmd 0x02 c (natLe 1 slot) false ok (setImgKey slot 2) s

/-- SET_REQUIRE_PQ. -/
def requirePq (c : SigCmd) (s : State) : State :=
  sigCmd 0x03 c [] false true (fun s => { s with sec := { s.sec with otpPq := true } } |> fset SEC_STATUS_REQUIRE_PQ 1) s

/-! ### The debug lock (R485 to R488) -/

/-- Every page is never-written, and the metadata area is discarded (R486 step 4). -/
def wipeMemory (s : State) : State :=
  { s with
    mem := { s.mem with bytes := [], written := [], bittern := [], tracked := [], advice := [], heat := [], busy := [], waits := [] },
    hv := {} }

/-- Steps 2 to 5 of R486. -/
def unlockNow (s : State) : State :=
  let s := if s.img.deltaPhase = .marking then deltaCommit s else if s.img.staged.isSome then s |> rejectDelta 0x11 |> releaseDelta else s
  let s := each s.comps (fun c s => fatalComp c.slot s) s
  let s := { s with sec := { s.sec with keys := [], mdk := false, tap := true } } |> showKeys |> wipeMemory
  let n := s.lr.cur.unlocks + 1
  s |> modRecord (fun c => { c with unlocks := n }) |> logEvent 0x0D 0 n |> fset SEC_STATUS_UNLOCK_CNT (min 255 n)
    |> sealEvent 4 |> fset BRL_STATUS_UNLOCKED_SEEN 1 |> fset SEC_STATUS_DEBUG_UNLOCKED 1 |> fset SEC_STATUS_UNLOCK_STK 1
    |> eventF 0x0050 0

/-- DEBUG_UNLOCK: a second one changes nothing (R488). -/
def debugUnlock (c : SigCmd) (s : State) : State :=
  sigCmd 0x04 c [] false true (fun s => if fbit SEC_STATUS_DEBUG_UNLOCKED s then s else unlockNow s) s

/-! ### Measurements and sessions (R472, R473) -/

/-- The register values of a port's agent entries that name a slot. -/
def agentBytes (slot : Nat) (s : State) : List Byte :=
  (List.range 24).flatMap (fun p => (List.range 16).flatMap (fun k =>
    if fbit (PRT_AGENT_VALID p k) s && fget (PRT_AGENT_SLOT p k) s == slot then
      natLe 8 (1 + fget (PRT_AGENT_MATCH_ANY p k) s * 2 + slot * 4 + fget (PRT_AGENT_AGENT p k) s * 2 ^ 8
        + fget (PRT_AGENT_BI_ID p k) s * 2 ^ 16 + fget (PRT_AGENT_REQ_ID p k) s * 2 ^ 28)
    else []))

/-- The FLAGS of a composition entry (R38). -/
def compFlags (c : Comp) : Nat := b2n c.hostCache + 2 * b2n c.harvestEn + 4 * b2n c.farEn + 8 * b2n c.peerEn

/-- Measurement block 6 of a composition slot; empty for an absent slot. -/
def compBlock (slot : Nat) (s : State) : List Byte :=
  match compAt slot s with
  | none => []
  | some c =>
    natLe 2 c.cmpId ++ natLe 1 slot ++ natLe 1 (b2n c.software) ++ natLe 2 (compFlags c) ++ natLe 8 c.tenantTag
      ++ natLe 4 (fget (CMP_SEC_BIND_BIND_EPOCH slot) s) ++ natLe 1 (fget (CMP_SEC_BIND_KEY_GEN slot) s) ++ natLe 8 c.portMask
      ++ sha384 (c.members.flatMap (natLe 2)) ++ sha384 (agentBytes slot s)

/-- SEC_STATUS as one number. -/
def secStatus (s : State) : Nat :=
  fget SEC_STATUS_DEBUG_UNLOCKED s + fget SEC_STATUS_REQUIRE_PQ s * 2 + fget SEC_STATUS_ENTROPY_STK s * 4
    + fget SEC_STATUS_UNLOCK_STK s * 8 + fget SEC_STATUS_UNLOCK_CNT s * 16 + fget SEC_STATUS_IMGKEY s * 4096
    + fget SEC_STATUS_PEER_AUTH_STK s * 2 ^ 20

/-- The digest of a firmware: the one shipped while none was written. -/
def digestOr (n : Nat) (d : List Byte) : List Byte := if d.isEmpty then Config.shippedDigest n else d

/-- The content of a measurement block, for a requester whose own composition slot is `own`; management has none. -/
def measurement (own : Option Nat) (index : Nat) (s : State) : Option (List Byte) :=
  match index with
  | 1 => some (Config.shippedDigest 0)
  | 2 => some (digestOr 1 s.mgt.onyxRun)
  | 3 => some (digestOr 2 s.brl.fwDigest)
  | 4 => some (natLe 8 s.img.serial ++ s.sec.chain)
  | 5 => some (natLe 8 (secStatus s) ++ (activeSlots s).flatMap (fun i =>
      let k := (kget? s.sec.imgKeys i).getD ([], [])
      sha384 (k.1 ++ k.2)))
  | 6 => own.map (fun slot => compBlock slot s)
  | _ => if own.isNone && 0x10 ≤ index && index ≤ 0x4F then some (compBlock (index - 0x10) s) else none

/-- An SPDM request (R472): a DOE mailbox serves only agents with a valid entry; others are dropped and counted. -/
def spdm (r : Requester) (f : Option Nat → State → State) (s : State) : State :=
  if !s.mgt.fwUp then s else
  match r with
  | .mgmt _ => f none s
  | .doe p reqId =>
    match doeEntry p.val reqId.toNat s with
    | some k => if fget (PRT_STATUS_ROLE p.val) s = 1 then f (some (fget (PRT_AGENT_SLOT p.val k) s)) s else s
    | none => finc (SEC_EVENT_CNT 1) s

/-- GET_MEASUREMENTS: the block, signed under ALIAS, or InvalidRequest. -/
def getMeasurements (r : Requester) (index : Nat) (s : State) : State :=
  spdm r (fun own s => match measurement own index s with
    | some b => emit (.record "MEASUREMENTS" ((b ++ Config.signature 1 b).map (·.toNat))) s
    | none => emit (.record "SPDM_ERROR_INVALID_REQUEST" []) s) s

/-- KEY_EXCHANGE: a secured session begins. -/
def keyExchange (r : Requester) (s : State) : State :=
  spdm r (fun _ s => { s with sec := { s.sec with sessions := s.sec.sessions + 1 } } |> emit (.record "KEY_EXCHANGE_RSP" [])) s

/-- SLOT_WRITE. -/
def execSlotWrite (c : SigCmd) (slot : BitVec 8) (ecdsa mldsa : List Byte) (s : State) := ok (slotWrite c slot.toNat ecdsa mldsa s)
/-- SLOT_REVOKE. -/
def execSlotRevoke (c : SigCmd) (slot : BitVec 8) (s : State) := ok (slotRevoke c slot.toNat s)
/-- SET_REQUIRE_PQ. -/
def execSetRequirePq (c : SigCmd) (s : State) := ok (requirePq c s)
/-- DEBUG_UNLOCK. -/
def execDebugUnlock (c : SigCmd) (s : State) := ok (debugUnlock c s)
/-- GET_MEASUREMENTS. -/
def execGetMeasurements (r : Requester) (index : BitVec 8) (s : State) := ok (getMeasurements r index.toNat s)
/-- KEY_EXCHANGE. -/
def execKeyExchange (r : Requester) (s : State) := ok (keyExchange r s)

end Sys2Proof.Machine
end

