-- ==== Sys2Proof/Machine/Onyx.lean ====
section
/-! DEFINITION. Onyx (chapter 22): the two halves and their charge, state copies, firmware starts, the power-on self-test,
events, requests, firmware updates, margin sweeps. -/

namespace Sys2Proof.Machine

/-! ### Charge (R510 to R513) -/

/-- A half by its HOLDER code has passed its self-test since its last start: 1 Onyx-W, 2 Onyx-E. -/
def halfHealthy (h : Nat) (s : State) : Bool :=
  match h with
  | 1 => fbit MGT_CHARGE_W_HEALTHY s
  | 2 => fbit MGT_CHARGE_E_HEALTHY s
  | _ => false

/-- The other half. -/
def otherHalf (h : Nat) : Nat := 3 - h

/-- A claim that succeeds. -/
def takeCharge (h : Nat) (s : State) : State :=
  s |> fset MGT_CHARGE_HOLDER h |> fset MGT_CHARGE_EPOCH (fget MGT_CHARGE_EPOCH s + 1)

/-- The SPDM sessions end, because ALIAS is derived again (R517). -/
def endSessions (s : State) : State := { s with sec := { s.sec with sessions := 0 } }

/-- The firmware that a start loads from flash is measured (R471, R520). -/
def loadFirmware (s : State) : State :=
  { s with mgt := { s.mgt with onyxRun := if s.mgt.onyxFw.isEmpty then [] else sha384 s.mgt.onyxFw } }

/-- The active half stops until the next TAKEOVER: `how` as `resuming` codes it. -/
def stopHalf (how : Nat) (s : State) : State :=
  { s with mgt := { s.mgt with fwUp := false, resuming := how } } |> endSessions

/-- The standby half claims charge: it takes over, and the old holder still believes it is active. -/
def standbyClaims (s : State) : State :=
  let h := fget MGT_CHARGE_HOLDER s
  { s with mgt := { s.mgt with believes := h } } |> takeCharge (otherHalf h) |> stopHalf 1

/-- A warm restart of the active half (R517). -/
def warmRestart (s : State) : State := s |> loadFirmware |> stopHalf 2

/-- CHARGE_HEARTBEAT (R512): a stale one is rejected; a half that believed it was active has lost charge. -/
def chargeHeartbeat (east : Bool) (epoch : Nat) (s : State) : State :=
  let h := if east then 2 else 1
  if fget MGT_CHARGE_HOLDER s = h && fget MGT_CHARGE_EPOCH s = epoch then s
  else if s.mgt.believes = h then
    { s with mgt := { s.mgt with believes := 0 } } |> fset MGT_CHARGE_DISAGREE_STK 1 |> finc (MGT_EVENT_CNT 4) |> eventF 0x0060 0
  else s

/-- CHARGE_WATCHDOG (R513): a healthy standby claims; else the hung half is restarted. -/
def chargeWatchdog (s : State) : State :=
  let h := fget MGT_CHARGE_HOLDER s
  if h = 0 || (!s.mgt.fwUp && s.mgt.resuming = 0) then s
  else if halfHealthy (otherHalf h) s then standbyClaims s else warmRestart s

/-- FAILOVER = 1 (R513): ignored and counted with no healthy standby. Whether it was taken. -/
def failoverNow (s : State) : Bool × State :=
  let h := fget MGT_CHARGE_HOLDER s
  if h ≠ 0 && halfHealthy (otherHalf h) s then (true, s |> standbyClaims |> fset MGT_FW_FAILOVER 0)
  else (false, s |> fset MGT_FW_FAILOVER 0 |> finc GLB_IGNORED_WRITE_CNT)

/-- A delta that had not reached its step 4 is abandoned when another half, or a restarted one, resumes (R52). -/
def abandonDelta (s : State) : State :=
  if s.img.deltaPhase = .draining then
    let s := { s with img := { s.img with deltaPhase := .idle, deltaBuf := [], staged := none } }
    each s.comps (fun c s => if c.state = .changing then setCState c.slot .active s else s) s |> releaseDelta
  else s

/-- Firmware runs: what was latched meanwhile is delivered (R420, R445). -/
def firmwareRuns (s : State) : State :=
  { s with mgt := { s.mgt with fwUp := true, resuming := 0 } } |> deliverNmis |> deliverLatched

/-- TAKEOVER: step 5 of R517. -/
def takeover (s : State) : State :=
  match s.mgt.resuming with
  | 0 => s
  | 1 => s |> firmwareRuns |> abandonDelta |> finc (MGT_EVENT_CNT 3) |> eventF 0x0062 0
  | _ => s |> fset MGT_FW_RESTART 0 |> firmwareRuns |> abandonDelta |> finc (MGT_EVENT_CNT 2) |> eventF 0x0061 0

/-- One PoolEvent of a pool state copy, stage (1) or commit (2): the pool epoch, the master's STRAP_ID, the standby master
and the copy's number (assumptions 12, 17). -/
def sendState (kind dst : Nat) (s : State) : State :=
  let w := fget FAB_FORM_POOL_EPOCH s + fget GLB_PKG_STATUS_STRAP_ID s * 2 ^ 16 + fget FAB_FORM_STANDBY_NODE s * 2 ^ 26
  send 0x88 dst 0 0 0 (kind * 2 ^ 12) [BitVec.ofNat 128 w, BitVec.ofNat 128 s.mgt.copySeq] false s

/-- STATE_COPY (R514, R518): a copy whose header or CRC is bad is discarded; the master copies to its standby. -/
def stateCopy (crcOk : Bool) (s : State) : State :=
  if !s.mgt.fwUp || !crcOk then s else
  let m := s.mgt
  let s := { s with mgt := { m with copySeq := m.copySeq + 1, copyJseq := m.jseq, journalled := 0 } }
  let sb := fget FAB_FORM_STANDBY_NODE s
  if !isMaster s || !fbit FAB_NODE_JOINED s || sb = myNode s then s else
  s |> sendState 1 sb |> sendState 2 sb

/-! ### The lifetime record comes back (R529) -/

/-- The vaults that a tile adopted for good: TIL_PERM and the pans that serve them (R20, R21). -/
def loadPerm (t : Nat) (s : State) : State :=
  let l := kgetD s.lr.cur.perm t []
  each (List.range l.length) (fun i s =>
    let v := l.getD i 0
    let q := leastLoaded (t ^^^ 1) s
    { s with pan := { s.pan with server := kput s.pan.server (t * 128 + v) q } }
      |> fset (permVault t i) v |> fset (permValid t i) 1) s

/-- A tile's spares (R528). -/
def loadSpares (t : Nat) (s : State) : State :=
  let row := kgetD s.lr.cur.spares t [0xFF, 0xFF, 0, 0]
  let f := row.getD 2 0
  s |> fset (TIL_PAN_SPARE_SP0_VAULT t) (row.getD 0 0xFF) |> fset (TIL_PAN_SPARE_SP1_VAULT t) (row.getD 1 0xFF)
    |> fsetb (TIL_PAN_SPARE_SP0_BAD t) (bitAt f 0) |> fsetb (TIL_PAN_SPARE_SP1_BAD t) (bitAt f 1)
    |> fsetb (TIL_PAN_SPARE_PERM t) (bitAt f 2) |> fsetb (TIL_PAN_SPARE_RETIRED t) (bitAt f 3)
    |> fset (TIL_PAN_SPARE_PERM_VAULT t) (row.getD 3 0)

/-- The registers and tables that are restored from the record. -/
def loadRecord (s : State) : State :=
  let c := s.lr.cur
  let s := { s with pan := { s.pan with
      vstep := (c.pans.map (fun e => (e.1, e.2 % 4))).filter (fun e => e.2 != 0), drop := c.drop,
      failed := (c.pans.filter (fun e => e.2 ≥ 4)).map (fun e => (e.1, ())), server := [] } }
  s |> each (List.range 32) (fun t s => s |> loadSpares t |> loadPerm t)
    |> fset RAS_STATUS_SPARE_LAYER c.spareLayer |> fset LRC_LOG_NEXT c.logNext |> fset LRC_POWERED_S c.poweredS
    |> fset SEC_STATUS_UNLOCK_CNT (min 255 c.unlocks) |> showBudget |> showPan |> showCodes

/-- The two copies at a cold reset: what is in force, and which copy is rebuilt. The mirror takes the summary. -/
def mergeRecord (primaryOk mirrorOk : Bool) (s : State) : State :=
  let a := (newestSlot s.lr.primary).getD {}
  let b := (newestSlot s.lr.mirror).getD {}
  let cur := if primaryOk && mirrorOk then mergeSummaries a b else if primaryOk then a else b
  let s := { s with lr := { s.lr with cur := cur } }
  s |> fsetb LRC_STATUS_PRIMARY_OK primaryOk |> fsetb LRC_STATUS_MIRROR_OK mirrorOk
    |> onlyIf (primaryOk != mirrorOk) (fset LRC_STATUS_REBUILT_STK 1)
    |> onlyIf (primaryOk || mirrorOk) (fun s => s |> modRecord (fun c => { c with coldResets := c.coldResets + 1 }) |> mirrorSync true)

/-- ONYX_FIRMWARE_START (R532 step 3): charge is claimed (after a warm reset it stays), the record is restored, what was
latched is delivered. Which half passed its self-test later is a free bit (R511). -/
def firmwareStart (wOk eOk primaryOk mirrorOk : Bool) (s : State) : State :=
  let plan := fget CLK_STATUS_PLAN s
  if s.mgt.fwUp || !s.pwr.aon || (plan ≠ 1 && plan ≠ 2) || fbit GLB_PKG_STATUS_THERMTRIP s then s else
  let cold := fget MGT_CHARGE_HOLDER s == 0
  let s := s |> fsetb MGT_CHARGE_W_HEALTHY wOk |> fsetb MGT_CHARGE_E_HEALTHY eOk
  if !wOk && !eOk then s else
  let old := fget MGT_CHARGE_HOLDER s
  let s :=
    if old ≠ 0 && halfHealthy old s then s
    else if wOk && eOk then
      let (b, s) := takeFree 1 s
      takeCharge (1 + b.toNat) s
    else takeCharge (if wOk then 1 else 2) s
  let s := if cold then s |> loadFirmware |> mergeRecord primaryOk mirrorOk |> loadOtp else s
  s |> loadRecord |> firmwareRuns

/-! ### The power-on self-test (R533) -/

/-- A position that fails the self-test: the pan it serves moves to a spare, or its vault is adopted for good. -/
def postFail (t pos : Nat) (s : State) : State :=
  let key := t * 130 + pos
  if kmem s.pan.failed key then s else
  let p := if pos < 128 then t * 128 + pos else t * 128 + fget (spVault t (pos - 128)) s
  let serves : Bool := if pos < 128 then physPan p s == pos else fget (spVault t (pos - 128)) s < 128
  let s := if serves then substitute p s
    else s |> markFailed key |> onlyIf (pos ≥ 128) (fun s => s |> fset (spBad t (pos - 128)) 1 |> recordSpares t)
  match kget? s.pan.subst p with
  | some q => switchTo p q s
  | none => s

/-- POWER_ON_SELF_TEST. -/
def powerOnSelfTest (failing : List (Nat × Nat)) (otherFail : Bool) (s : State) : State :=
  let plan := fget CLK_STATUS_PLAN s
  if !s.mgt.fwUp || s.mgt.postOk || !fbit GLB_PKG_STATUS_PWRGD_MAIN s || (plan ≠ 1 && plan ≠ 2) then s else
  let s := each (failing.filter (fun f => f.2 ≥ 128)) (fun f => postFail f.1 f.2) s
  let s := each (failing.filter (fun f => f.2 < 128)) (fun f => postFail f.1 f.2) s
  if otherFail then fatalInternal s else { s with mgt := { s.mgt with postOk := true } }

/-! ### Events and requests (R519 to R527) -/

/-- The 32 bytes of an event record. -/
def eventBytes (e : EventRec) : List Byte := (eventSlots e).flatMap (fun x => natLe 16 x.toNat)

/-- EVENT_SUBSCRIBE. -/
def eventSubscribe (m : MgtReq) (beryl : Bool) (eid slot : Nat) (s : State) : State :=
  if slot > 1 then answer m 2 [] s
  else if beryl then { s with brl := { s.brl with subs := kput s.brl.subs slot eid } } |> answer m 0 []
  else { s with mgt := { s.mgt with subs := kput s.mgt.subs slot eid } } |> answer m 0 []

/-- EVENT_READ. -/
def eventRead (m : MgtReq) (seq count : Nat) (s : State) : State :=
  if count > 32 then answer m 2 [] s
  else answer m 0 (((s.mgt.events.filter (fun e => e.seq ≥ seq)).take count).flatMap eventBytes) s

/-- EVENT_ACK. -/
def eventAck (m : MgtReq) (seq : Nat) (s : State) : State :=
  { s with mgt := { s.mgt with events := s.mgt.events.filter (fun e => e.seq > seq) } } |> updateQueued |> answer m 0 []

/-- LR_READ. -/
def lrRead (m : MgtReq) (off len : Nat) (s : State) : State :=
  if len > 1024 || off + len > 0x800000 then answer m 2 [] s
  else answer m 0 ((List.range len).map (fun i => recordByte (off + i) s)) s

/-- Every queued event is pushed again (R524). -/
def eventPushRetry (s : State) : State := if s.mgt.fwUp then each s.mgt.events pushEvent s else s

/-- FAILOVER: a command that finds no healthy standby is not permitted. -/
def failover (m : MgtReq) (s : State) : State :=
  let (done, t) := failoverNow s
  answer m (if done then 0 else 3) [] t

/-- MCTP_CONTROL: type 0 is answered; a type with no use is dropped and counted (R520). -/
def mctpControl (beryl : Bool) (kind : Nat) (_data : List Byte) (s : State) : State :=
  if !s.mgt.fwUp then s
  else if kind = 0 then emit (.record "MCTP_CONTROL_RESPONSE" [b2n beryl]) s
  else if [0x01, 0x05, 0x06, 0x7F].contains kind then s
  else finc (MGT_EVENT_CNT 5) s

/-- PLDM_MONITORING: the numeric readings, then PLAN, LIMIT and the composition states. -/
def pldmMonitoring (readings : List Byte) (s : State) : State :=
  if !s.mgt.fwUp then s else
  let states := (List.range 64).map (fun k => fget (CMP_STATE_STATE k) s)
  emit (.record "PLDM_SENSORS" (readings.map (·.toNat) ++ [fget CLK_STATUS_PLAN s, fget PWR_STATUS_LIMIT s] ++ states)) s

/-- PLDM_FIRMWARE_UPDATE: a component goes to its own region of the flash (R526); one that does not fit is not written. -/
def pldmUpdate (component : Nat) (b : List Byte) (s : State) : State :=
  if !s.mgt.fwUp then s else
  match component with
  | 0 => if b.length > 0x1000000 then s else { s with img := { s.img with slotA := b } }
  | 1 => if b.length > 0x1000000 then s else { s with img := { s.img with slotB := b } }
  | 2 => if b.length > 0x400000 then s else { s with mgt := { s.mgt with onyxFw := b } }
  | _ => if b.length > 0x200000 then s else { s with mgt := { s.mgt with berylFw := b } }

/-! ### Sticky fields (R522) -/

/-- Sticky fields whose own rules raise an event where they set it. -/
def namedSticky (k : Nat) : Bool :=
  let slotted (f : Nat → Fld) (n : Nat) : Bool := (List.range n).any (fun i => (f i).key == k)
  slotted CMP_HARVEST_USE_WARN_STK 64 || slotted CMP_HARVEST_USE_EXHAUST_STK 64 || slotted TIL_PAN_SPARE_SUBST_STK 32 || slotted PRT_STATUS_MISWIRED_STK 24
    || slotted PRT_STATUS_DOWNGRADE_STK 24 || slotted PRT_STATUS_UNSUPPORTED_STK 24
    || [DIR_STATUS_UNEXPECTED_STK, FAB_STATUS_MALFORMED_STK, FAB_STATUS_AUDIT_STK, FAB_STATUS_LINK_DOWN_STK, CLK_STATUS_XREF_A_FAIL_STK,
        CLK_STATUS_XREF_B_FAIL_STK, CLK_STATUS_FALLBACK_STK, CLK_STATUS_HOLD_STK, PWR_STATUS_REFUSED_STK, GLB_PKG_STATUS_MAIN_LOSS_STK,
        GLB_PKG_STATUS_PMBUS_ERR_STK, GLB_PKG_STATUS_SEQ_FAIL_STK, RAS_STATUS_AUDIT_STK, RAS_STATUS_FATAL_INT_STK,
        RAS_STATUS_LAYER_SPARE_STK, RAS_STATUS_SPARE_EXHAUST_STK, RAS_STATUS_AORC_FAIL_STK, SEC_STATUS_ENTROPY_STK, SEC_STATUS_UNLOCK_STK,
        SEC_STATUS_PEER_AUTH_STK, MGT_IMAGE_RESULT_IMAGE_FAIL_STK, MGT_IMAGE_RESULT_DELTA_FAIL_STK, MGT_CHARGE_DISAGREE_STK,
        FAB_FORM_DUP_STRAP_STK, FAB_FORM_DUP_NODE_STK].any (fun f => f.key == k)

/-- The block index of an address (R522, R548). -/
def blockIndex (a : Nat) : Nat :=
  match a / 2 ^ 20 with
  | 0 => 0 | 1 => 1 | 2 => 2 | 3 => 3 | 4 => 4 | 5 => 5 | 6 => 6 | 7 => 7 | 8 => 8 | 9 => 9 | 10 => 10 | 11 => 11 | 12 => 12
  | 13 => 13 | 14 => 14 | _ => 15

/-- The composition that a register belongs to; 0 for none. -/
def regComp (a : Nat) (s : State) : Nat :=
  if inCmp a then cmpIdOf (a / 4096 % 256) s
  else if inSlc a then ((compOfSluice ((a - 2 ^ 24) / 256) s).map (·.cmpId)).getD 0
  else 0

/-- STICKY_SAMPLE: one STICKY_STATUS for each rise. -/
def stickySample (s : State) : State :=
  if !s.mgt.fwUp then s else
  let now := (s.regs.filter (fun e => e.2 == 1 && accessOf e.1 == some .w1cHu)).map (·.1)
  let rose := now.filter (fun k => !kmem s.mgt.stuck k && !namedSticky k)
  let s := { s with mgt := { s.mgt with stuck := now.map (fun k => (k, ())) } }
  each rose (fun k s =>
    let a := k / 64 * 8
    event 0x0070 (regComp a s) (blockIndex a) (a + k % 64 * 2 ^ 32) s) s

/-! ### Margin sweeps (R531) -/

/-- The next group: up to 16 tiles, never a tile and its partner. -/
def sweepGroup (todo : List Nat) : List Nat :=
  todo.foldl (fun g t => if g.length < 16 && !g.contains (t ^^^ 1) then g ++ [t] else g) []

/-- Begin the next group when the current one is done; the sweep ends with MARGIN_DONE. -/
def sweepNext (s : State) : State :=
  match s.mgt.sweep with
  | none => s
  | some w =>
    if !w.now.isEmpty then s
    else if w.todo.isEmpty then { s with mgt := { s.mgt with sweep := none } } |> eventF 0x0027 0
    else
      let g := sweepGroup w.todo
      { s with mgt := { s.mgt with sweep := some { todo := w.todo.filter (fun t => !g.contains t), now := g.map (fun t => (t, 0)) } } }

/-- A sweep of the tiles of a mask begins; a retired tile has nothing to sweep. -/
def startSweep (mask : Nat) (s : State) : State :=
  let todo := (List.range 32).filter (fun t => bitAt mask t && !fbit (TIL_PAN_SPARE_RETIRED t) s)
  { s with mgt := { s.mgt with sweep := some { todo } } } |> sweepNext

/-- MARGIN_SWEEP. -/
def marginSweep (m : MgtReq) (mask : Nat) (s : State) : State :=
  if s.mgt.sweep.isSome then answer m 1 [] s else s |> startSweep mask |> answer m 0 []

/-- One tile's slot: `good` is whether its patterns passed at 10 × k mV below. -/
def sweepSlot (t : Nat) (good : Bool) (s : State) : State :=
  match s.mgt.sweep with
  | none => s
  | some w =>
    match w.now.find? (fun e => e.1 == t) with
    | none => s
    | some (_, k) =>
      if fbit (TIL_ADOPT_SELFTEST t) s || fbit (TIL_ADOPT_SELFTEST (t ^^^ 1)) s then s
      else if good && k < 12 then
        { s with mgt := { s.mgt with sweep := some { w with now := w.now.map (fun e => if e.1 == t then (t, k + 1) else e) } } }
      else
        let mv := if good then 120 else if k = 0 then 0xFE else 10 * (k - 1)
        { s with mgt := { s.mgt with sweep := some { w with now := w.now.filter (fun e => e.1 != t) } } }
          |> modRecord (fun c => { c with margin := kset c.margin t mv 0xFF })
          |> logEvent 0x0B t (mv + bitsOf (fget (PWR_TILE_CODE (t / 8)) s) (8 * (t % 8)) 8 * 256)

/-- MARGIN_SLOT: the tiles of the group leave their work to their partners and run the patterns. -/
def marginSlot (results : List (Nat × Bool)) (s : State) : State :=
  match s.mgt.sweep with
  | none => s
  | some w =>
    let busy := ((s.pan.pieces.filter (fun p => w.now.any (fun e => e.1 == panTile p.on) && !p.waiting)).map (·.on)).eraseDups
    s |> journalAppend |> each busy handOver |> each results (fun r => sweepSlot r.1 r.2) |> sweepNext |> dispatchPieces

/-- MARGIN_PERIOD: MARGIN_PERIOD_D days have passed. -/
def marginPeriod (s : State) : State :=
  if s.mgt.fwUp && fget MGT_FW_MARGIN_PERIOD_D s ≠ 0 && s.mgt.sweep.isNone then startSweep 0xFFFFFFFF s else s

/-! ### The commands -/

/-- CHARGE_HEARTBEAT. -/
def execChargeHeartbeat (east : Bool) (epoch : BitVec 32) (s : State) := ok (chargeHeartbeat east epoch.toNat s)
/-- CHARGE_WATCHDOG. -/
def execChargeWatchdog (s : State) := ok (chargeWatchdog s)
/-- TAKEOVER. -/
def execTakeover (s : State) := ok (takeover s)
/-- STATE_COPY. -/
def execStateCopy (crcOk : Bool) (s : State) := ok (stateCopy crcOk s)
/-- ONYX_FIRMWARE_START. -/
def execOnyxFirmwareStart (wOk eOk primaryOk mirrorOk : Bool) (s : State) := ok (firmwareStart wOk eOk primaryOk mirrorOk s)
/-- POWER_ON_SELF_TEST. -/
def execPowerOnSelfTest (failing : List (Fin 32 × Fin 130)) (otherFail : Bool) (s : State) :=
  ok (powerOnSelfTest (failing.map (fun f => (f.1.val, f.2.val))) otherFail s)
/-- EVENT_SUBSCRIBE. -/
def execEventSubscribe (m : MgtReq) (beryl : Bool) (eid slot : BitVec 8) (s : State) :=
  ok (mgtCmd m (eventSubscribe m beryl eid.toNat slot.toNat) s)
/-- EVENT_READ. -/
def execEventRead (m : MgtReq) (seq : BitVec 64) (count : BitVec 8) (s : State) := ok (mgtCmd m (eventRead m seq.toNat count.toNat) s)
/-- EVENT_ACK. -/
def execEventAck (m : MgtReq) (seq : BitVec 64) (s : State) := ok (mgtCmd m (eventAck m seq.toNat) s)
/-- LR_READ. -/
def execLrRead (m : MgtReq) (off len : BitVec 32) (s : State) := ok (mgtCmd m (lrRead m off.toNat len.toNat) s)
/-- MARGIN_SWEEP. -/
def execMarginSweep (m : MgtReq) (mask : BitVec 32) (s : State) := ok (mgtCmd m (marginSweep m mask.toNat) s)
/-- FW_RESTART. -/
def execFwRestart (m : MgtReq) (s : State) := ok (mgtCmd m (fun s => s |> answer m 0 [] |> warmRestart) s)
/-- FAILOVER. -/
def execFailover (m : MgtReq) (s : State) := ok (mgtCmd m (failover m) s)
/-- SEQ_RETRY. -/
def execSeqRetry (m : MgtReq) (s : State) := ok (mgtCmd m (fun s => s |> orderedRetry |> answer m 0 []) s)
/-- WARM_RESET (R14). -/
def execWarmReset (m : MgtReq) (s : State) := ok (mgtCmd m (fun s => s |> answer m 0 [] |> warmReset) s)
/-- MCTP_CONTROL. -/
def execMctpControl (beryl : Bool) (kind : BitVec 8) (data : List Byte) (s : State) := ok (mctpControl beryl kind.toNat data s)
/-- PLDM_MONITORING. -/
def execPldmMonitoring (readings : List Byte) (s : State) := ok (pldmMonitoring readings s)
/-- PLDM_FIRMWARE_UPDATE. -/
def execPldmFirmwareUpdate (component : Fin 4) (bytes : List Byte) (s : State) := ok (pldmUpdate component.val bytes s)
/-- STICKY_SAMPLE. -/
def execStickySample (s : State) := ok (stickySample s)
/-- EVENT_PUSH_RETRY. -/
def execEventPushRetry (s : State) := ok (eventPushRetry s)
/-- MARGIN_PERIOD. -/
def execMarginPeriod (s : State) := ok (marginPeriod s)
/-- MARGIN_SLOT. -/
def execMarginSlot (results : List (Fin 32 × Bool)) (s : State) := ok (marginSlot (results.map (fun r => (r.1.val, r.2))) s)

end Sys2Proof.Machine
end

