-- ==== Sys2Proof/Machine/RegWrite.lean ====
section
/-! DEFINITION. Register accesses (R7 to R12, R16 to R18, R180, R490, R548 to R556): where an access lands, the check of each
field it writes, and what the write starts. -/

namespace Sys2Proof.Machine

/-! ### The bits of one access -/

/-- A write inside one register: its address, the lowest bit written, how many bits, and their value. -/
structure RWr where
  reg : Nat
  lo : Nat
  len : Nat
  value : Nat
  deriving DecidableEq, Repr

/-- The write of an aligned access. -/
def wrOf (addr : Nat) (wide : Bool) (value : Nat) : RWr :=
  if wide then { reg := addr / 8 * 8, lo := 0, len := 64, value }
  else { reg := addr / 8 * 8, lo := addr % 8 * 8, len := 32, value := value % 2 ^ 32 }

/-- The access is aligned (R9). -/
def alignedAcc (a : RegAcc) : Bool := a.addr.toNat % (if a.wide then 8 else 4) == 0

/-- Lowest bit of a field in its register. -/
def fldLo (f : Fld) : Nat := f.key % 64

/-- The write carries some bit of the field. -/
def touches (w : RWr) (f : Fld) : Bool := fldLo f < w.lo + w.len && w.lo < fldLo f + f.width

/-- Bit `i` of the register after the write: the written bit, or the bit that stands. -/
def mergeBits (w : RWr) (old : Nat) : Nat := old % 2 ^ w.lo + w.value % 2 ^ w.len * 2 ^ w.lo + old / 2 ^ (w.lo + w.len) * 2 ^ (w.lo + w.len)

/-- The field as the write leaves it (R9): its written bits, its other bits unchanged. -/
def mergeFld (w : RWr) (f : Fld) (s : State) : Nat :=
  mergeBits w (fget f s * 2 ^ fldLo f) / 2 ^ fldLo f % 2 ^ f.width

/-! ### Which values a field takes (R8, R556) -/

/-- Key equality. -/
def isFld (f g : Fld) : Bool := f.key == g.key

/-- The composition slot of a CMP window. -/
def cmpSlot (reg : Nat) : Nat := reg / 4096 % 256

/-- The sluice of an SLC register. -/
def slcIndex (reg : Nat) : Nat := (reg - 2 ^ 24) / 256

/-- The port of a PRT register. -/
def prtIndex (reg : Nat) : Nat := (reg - 0x500000) / 0x4000

/-- A field of a CMP window takes the value. -/
def legalCmp (f : Fld) (slot v : Nat) (s : State) : Bool :=
  let locked := fbit (CMP_ASID_CMD_GO slot) s
  if isFld f (CMP_HEAT_CTL_EPOCH slot) then v ≤ 0xA
  else if isFld f (CMP_ASID_CMD_ASID slot) then !locked
  else if isFld f (CMP_ASID_CMD_OP slot) then !locked && v ≤ 4
  else true

/-- A field of FAB_ROUTE_d takes the value. -/
def legalRoute (f : Fld) (d v : Nat) : Bool :=
  if isFld f (FAB_ROUTE_PRIMARY d) || isFld f (FAB_ROUTE_ALTERNATE d) || isFld f (FAB_ROUTE_BULK_PORT1 d)
    || isFld f (FAB_ROUTE_BULK_PORT2 d) || isFld f (FAB_ROUTE_BULK_PORT3 d) then v < 24
  else if isFld f (FAB_ROUTE_BULK_WAYS d) then v ≠ 3
  else true

/-- A field of a sluice takes the value (R180, R197, R198). ENABLE and the doorbells are not asked here. -/
def legalSlc (f : Fld) (k v : Nat) (s : State) : Bool :=
  let disabled := fget (SLC_STATUS_STATE k) s == 0
  if isFld f (SLC_IRQ_MODE k) then v ≠ 3 && (v ≠ 2 || bitAt (fget (SLC_FEAT_ACCEPT k 0) s) 6)
  else if isFld f (SLC_IRQ_VECTOR k) then
    disabled || (compOfSluice k s).any (fun c => vecOk (fget (SLC_CTL_PORT k) s) v c.slot s)
  else if f.key / 64 * 8 == 2 ^ 24 + 256 * k + 0x30 then true
  else if isFld f (SLC_CTL_SQ_LOG2 k) || isFld f (SLC_CTL_CQ_LOG2 k) then disabled && 4 ≤ v && v ≤ 16
  else if isFld f (SLC_CTL_PORT k) then disabled && v < 24
  else if isFld f (SLC_SQ_BASE_BASE k) then disabled && (fbit (SLC_CTL_SQ_LOC k) s || v < 2 ^ 44)
  else if isFld f (SLC_CQ_BASE_BASE k) then disabled && (fbit (SLC_CTL_CQ_LOC k) s || v < 2 ^ 44)
  else disabled

/-- A field of RAS_CTL takes the value. -/
def legalRas (f : Fld) (v : Nat) : Bool :=
  if isFld f RAS_CTL_SCRUB_PERIOD_H || isFld f RAS_CTL_SELFTEST_PERIOD_MIN || isFld f RAS_CTL_LAYER_CE_LIMIT then v ≠ 0
  else if isFld f RAS_CTL_LAYER then v ≤ 12
  else true

/-- A writable field takes the value. -/
def legalFld (f : Fld) (v : Nat) (s : State) : Bool :=
  let reg := f.key / 64 * 8
  if inCmp reg then legalCmp f (cmpSlot reg) v s
  else if inSlc reg then legalSlc f (slcIndex reg) v s
  else if 0x408000 ≤ reg && reg < 0x410000 then legalRoute f ((reg - 0x408000) / 8) v
  else legalRas f v

/-- The agent entry that a write would make valid obeys the conditions of PRT_AGENT_k (R393). -/
def agentEntryOk (w : RWr) (p k : Nat) (s : State) : Bool :=
  let g (f : Nat → Nat → Fld) : Nat := mergeFld w (f p k) s
  let others := (List.range 16).filter (fun i => i ≠ k && fbit (PRT_AGENT_VALID p i) s)
  g PRT_AGENT_VALID = 0 ||
    ((compAt (g PRT_AGENT_SLOT) s).any (fun c => bitAt c.portMask p && g PRT_AGENT_AGENT < c.hostAgents)
      && (g PRT_AGENT_MATCH_ANY = 0 || (k = 0 && others.isEmpty))
      && others.all (fun i => !(fget (PRT_AGENT_BI_ID p i) s == g PRT_AGENT_BI_ID && fget (PRT_AGENT_REQ_ID p i) s == g PRT_AGENT_REQ_ID)))

/-- The agent entry of a PRT register, none for another register. -/
def agentIndex (reg : Nat) : Option (Nat × Nat) :=
  if 0x500000 ≤ reg && reg < 0x560000 && 0x200 ≤ reg % 0x4000 && reg % 0x4000 < 0x280 then
    some (prtIndex reg, (reg % 0x4000 - 0x200) / 8) else none

/-- A write that a rule refuses as a whole register: an agent entry (R393), a heartbeat of an agent that is not (R110). -/
def wholeOk (w : RWr) (s : State) : Bool :=
  match agentIndex w.reg with
  | some (p, k) => agentEntryOk w p k s
  | none =>
    if inCmp w.reg && w.reg % 4096 == 0x88 then
      (compAt (cmpSlot w.reg) s).any (fun c => !touches w (CMP_HEARTBEAT_AGENT c.slot) || mergeFld w (CMP_HEARTBEAT_AGENT c.slot) s < c.hostAgents)
    else true

/-! ### One field -/

/-- What a write does to a field: the state, whether a refused value was carried, and whether a command starts. -/
def writeFld (w : RWr) (f : Fld) (acc : Access) (s : State) : State × Bool × Bool :=
  if !touches w f then (s, false, false) else
  let old := fget f s
  let v := mergeFld w f s
  match acc with
  | .ro => (s, v ≠ old, false)
  | .roHu => (s, v ≠ old, false)
  | .rw => if legalFld f v s then (fset f v s, false, false) else (s, v ≠ old, false)
  | .rwHu => if legalFld f v s then (fset f v s, false, false) else (s, v ≠ old, false)
  | .rws => if legalFld f v s then (fset f v s, false, false) else (s, v ≠ old, false)
  | .w1cHu => if v = 1 then (fset f 0 s, false, false) else (s, false, false)
  | .w1sHu => if v = 0 then (s, false, false) else if old = 1 then (s, true, false) else (s, false, true)
  | .cnt => (fset f v s, false, false)

/-- Every field of a register in turn: the state, whether the write is counted, and the command fields written 1. -/
def writeFlds (w : RWr) : List (Fld × Access) → State → State × Bool × List Fld
  | [], s => (s, false, [])
  | (f, a) :: r, s =>
    let (s, flag, go) := writeFld w f a s
    let (s, flag2, gos) := writeFlds w r s
    (s, flag || flag2, if go then f :: gos else gos)

/-! ### Commands that a 1 starts (W1S fields) -/

/-- The eyes that a measurement finds, where nothing tells them: free values. -/
def freeEyes (p : Nat) (s : State) : State :=
  each (List.range 9) (fun l s =>
    let (x, s) := takeFree 16 s
    s |> fset (PRT_LANE_MARGIN_EYE_W p l) (x.toNat % 256) |> fset (PRT_LANE_MARGIN_EYE_H p l) (x.toNat / 256)) s

/-- MARGIN_NOW (R401). -/
def marginNow (p : Nat) (eyes : Option (List (Fin 9 × BitVec 8 × BitVec 8))) (s : State) : State :=
  match eyes with
  | some l => measureEyes p l s
  | none => freeEyes p s

/-- What a command field of a CMP window starts. -/
def startCmp (f : Fld) (slot : Nat) (s : State) : State :=
  if isFld f (CMP_HEAT_CTL_CLEAR slot) then heatClear slot s
  else if isFld f (CMP_HEARTBEAT_BEAT slot) then recordBeat slot (fget (CMP_HEARTBEAT_AGENT slot) s) s
  else if isFld f (CMP_JOB_CTL_RESUME slot) then resumeJob slot (fget (CMP_JOB_CTL_JOB slot) s) s
  else asidGo slot s

/-- What a command field starts. Every other field of its register has been written. -/
def startCommand (eyes : Option (List (Fin 9 × BitVec 8 × BitVec 8))) (f : Fld) (s : State) : State :=
  let reg := f.key / 64 * 8
  if inCmp reg then startCmp f (cmpSlot reg) s
  else if 0x500000 ≤ reg && reg < 0x560000 then
    if fldLo f = 0 then retrainPort (prtIndex reg) s else marginNow (prtIndex reg) eyes s
  else if isFld f CLK_CTL_RETURN then returnClock s
  else if isFld f PWR_RENEW_RENEW then renew s
  else if isFld f RAS_CTL_LAYER_SPARE_NOW then spareNow s
  else if isFld f RAS_FAIL_CMD_FAIL then failComp s
  else if isFld f RAS_PAN_SEL_PAN_CLEAR then panClear (fget RAS_PAN_SEL_PAN s) s
  else if isFld f MGT_FW_RESTART then s |> fset MGT_FW_RESTART 1 |> warmRestart
  else if isFld f MGT_FW_FAILOVER then (failoverNow s).2
  else s

/-! ### What follows a write -/

/-- An agent entry was written (R491, R557): its decoder is uncommitted, and the bindings of the slots it named or names changed. -/
def agentWritten (p k : Nat) (old new : List Nat) (s : State) : State :=
  if old = new then s else
  let slots := ([old, new].filterMap (fun l => if l.getD 0 0 = 1 then l[2]? else none)).eraseDups
  { s with prt := { s.prt with hdm := kdel s.prt.hdm (p * 16 + k) } } |> each slots bindEpoch

/-- The fields of an agent entry. -/
def agentFields (p k : Nat) (s : State) : List Nat :=
  [fget (PRT_AGENT_VALID p k) s, fget (PRT_AGENT_MATCH_ANY p k) s, fget (PRT_AGENT_SLOT p k) s, fget (PRT_AGENT_AGENT p k) s,
   fget (PRT_AGENT_BI_ID p k) s, fget (PRT_AGENT_REQ_ID p k) s]

/-- ENABLE was written (R182). -/
def enableWritten (k : Nat) (on : Bool) (s : State) : State :=
  let s := fsetb (SLC_CTL_ENABLE k) on s
  if on then sluiceEnable k s else sluiceDisable k s

/-- What the state shows follows a register that was written. `s0` is the state before the write. -/
def afterWrite (w : RWr) (s0 s : State) : State :=
  let reg := w.reg
  match agentIndex reg with
  | some (p, k) => agentWritten p k (agentFields p k s0) (agentFields p k s) s
  | none =>
    if inCmp reg then (if reg % 4096 == 0x80 then showStopped (cmpSlot reg) s else s)
    else if inSlc reg then
      let k := slcIndex reg
      if reg % 256 == 0x30 && touches w (SLC_IRQ_ARMED k) && mergeFld w (SLC_IRQ_ARMED k) s0 == 1 then irqTry k s else s
    else if 0x408000 ≤ reg && reg < 0x410000 then
      let d := (reg - 0x408000) / 8
      routeChanged d (portsTo d s0) s
    else if reg = 0x900018 then holdOnWritten s
    else if reg = 0xA00000 then (if fbit RAS_STATUS_AUDIT_STK s then s else fset RAS_STATUS_AUDIT_CODE 0 s)
    else if reg = 0xA00018 then showPan s
    else if reg = 0xC00000 || reg = 0xC00020 then updateAlert s
    else s

/-- A doorbell register was written: its value is checked by R181, its reserved bits by R7. -/
def doorbellWrite (w : RWr) (k : Nat) (sq : Bool) (s : State) : State :=
  let f := if sq then SLC_SQ_TAIL_TAIL k else SLC_CQ_HEAD_HEAD k
  let rsvd := touches w (RSVD w.reg 16 48) && mergeFld w (RSVD w.reg 16 48) s ≠ 0
  let n := fget GLB_IGNORED_WRITE_CNT s
  let s := if touches w f then (if sq then sqDoorbell else cqDoorbell) k (mergeFld w f s) s else s
  if rsvd && fget GLB_IGNORED_WRITE_CNT s = n then finc GLB_IGNORED_WRITE_CNT s else s

/-- A write to GLB_FEAT_ACCEPT_k (R553). -/
def featAcceptWrite (w : RWr) (k : Nat) (s : State) : State :=
  let v := mergeFld w (GLB_FEAT_ACCEPT k) s
  let stored := (v &&& fget (GLB_FEAT_OFFER k) s) ||| (if k = 0 then 1 else 0)
  let half (x : Nat) : Nat := x / 2 ^ w.lo % 2 ^ w.len
  s |> fset (GLB_FEAT_ACCEPT k) stored |> onlyIf (half v != half stored) (finc GLB_IGNORED_WRITE_CNT) |> showOffers

/-- A write to an occupied register of a block other than BRL, let through by R490: at most one count (R12). -/
def writeReg (eyes : Option (List (Fin 9 × BitVec 8 × BitVec 8))) (w : RWr) (fs : List (Fld × Access)) (s : State) : State :=
  if inSlc w.reg && w.reg % 256 == 0x18 then doorbellWrite w (slcIndex w.reg) true s
  else if inSlc w.reg && w.reg % 256 == 0x20 then doorbellWrite w (slcIndex w.reg) false s
  else if 0x40 ≤ w.reg && w.reg < 0x60 then featAcceptWrite w ((w.reg - 0x40) / 8) s
  else if !wholeOk w s then
    if fs.any (fun f => touches w f.1 && mergeFld w f.1 s != fget f.1 s) then finc GLB_IGNORED_WRITE_CNT s else s
  else
    let ctl := inSlc w.reg && w.reg % 256 == 0
    let k := slcIndex w.reg
    let fs := if ctl then fs.filter (fun f => f.1.key != (SLC_CTL_ENABLE k).key) else fs
    let (t, flag, gos) := writeFlds w fs s
    let n := fget GLB_IGNORED_WRITE_CNT t
    let t := t |> afterWrite w s |> each gos (startCommand eyes)
      |> onlyIf (ctl && touches w (SLC_CTL_ENABLE k)) (enableWritten k (mergeFld w (SLC_CTL_ENABLE k) s == 1))
    if flag && fget GLB_IGNORED_WRITE_CNT t = n then finc GLB_IGNORED_WRITE_CNT t else t

/-! ### Where an access lands (R548 to R551) -/

/-- Where an access of a source lands: an address of the device register space, none for nothing there. -/
def landing (src : Src) (addr : Nat) (s : State) : Option Nat :=
  match src with
  | .mgmt => if addr < 2 ^ 25 then some addr else none
  | .firmware => if addr < 2 ^ 25 then some addr else none
  | .host p r =>
    match (doeEntry p r.toNat s).bind (fun k => compAt (fget (PRT_AGENT_SLOT p k) s) s) with
    | none => none
    | some c =>
      if 0x100000 ≤ addr && addr < 0x101000 then some (addr + 4096 * c.slot)
      else if 2 ^ 24 ≤ addr && addr < 2 ^ 25 then
        let k := (addr - 2 ^ 24) / 256
        if k < c.sluiceCount then some (addr + 256 * c.sluiceFirst) else none
      else none

/-- A host's access reaches the function of a device-role link that is up. -/
def barUp (src : Src) (s : State) : Bool :=
  match src with
  | .host p _ => fget (PRT_STATUS_ROLE p) s == 1 && fbit (PRT_STATUS_LINK_UP p) s
  | _ => true

/-- A host's request that matches no valid agent entry is counted (R393). -/
def strayHost (src : Src) (s : State) : State :=
  match src with
  | .host p r => if (doeEntry p r.toNat s).isNone then finc (PRT_EVENT_CNT p 4) s else s
  | _ => s

/-- The source is not a host: management, or its firmware (R490). -/
def isManagement : Src → Bool
  | .host _ _ => false
  | _ => true

/-- R490 keeps management from this write: the CMP window or a sluice of a present composition, but for disabling a sluice
that a delta takes out. -/
def guarded (src : Src) (w : RWr) (s : State) : Bool :=
  isManagement src &&
    (if inCmp w.reg then (compAt (cmpSlot w.reg) s).isSome
     else if inSlc w.reg then
       let k := slcIndex w.reg
       let disables := w.reg % 256 == 0 && touches w (SLC_CTL_ENABLE k) && mergeFld w (SLC_CTL_ENABLE k) s == 0
       (compOfSluice k s).isSome && !(disables && sluiceLeaving k s)
     else false)

/-- A register write by a source. -/
def writeAccess (eyes : Option (List (Fin 9 × BitVec 8 × BitVec 8))) (src : Src) (a : RegAcc) (s : State) : State :=
  if !barUp src s then s
  else if !alignedAcc a then finc GLB_BAD_ACCESS_CNT s
  else
    match landing src a.addr.toNat s with
    | none => strayHost src s
    | some addr =>
      let w := wrOf addr a.wide a.value.toNat
      match regAt w.reg with
      | none => s
      | some fs =>
        if inBrl w.reg then finc GLB_IGNORED_WRITE_CNT s
        else if inCmp w.reg && (compAt (cmpSlot w.reg) s).isNone then s
        else if guarded src w s then finc (SEC_EVENT_CNT 0) s
        else writeReg eyes w fs s

/-- The value that a 64-bit read of the device register space returns (R9, R11, R551). -/
def readAccess (addr : Nat) (s : State) : Nat :=
  if addr % 8 ≠ 0 then 2 ^ 64 - 1
  else if addr ≥ 2 ^ 25 then 0
  else if inCmp addr && (compAt (cmpSlot addr) s).isNone then 0
  else
    match regAt addr with
    | none => 0
    | some fs => regValue fs s

end Sys2Proof.Machine
end

