-- ==== Sys2Proof/Machine/RegCommands.lean ====
section
/-! DEFINITION. The commands that are register accesses: the general write, and each write that has a row of its own. -/

namespace Sys2Proof.Machine

/-- A 64-bit access to a register of the device register space. -/
def wideAcc (reg value : Nat) : RegAcc := { addr := BitVec.ofNat 64 reg, wide := true, value := BitVec.ofNat 64 value }

/-- An access to the low half or the whole of a register, with some of its bits forced. -/
def forcedAcc (reg : Nat) (a : RegAcc) (clear set : Nat) : RegAcc :=
  { addr := BitVec.ofNat 64 reg, wide := a.wide, value := BitVec.ofNat 64 ((a.value.toNat - (a.value.toNat &&& clear)) ||| set) }

/-- Address of a register of a CMP window as a source names it: a host names only its own slot's (R550). -/
def cmpAddr (src : Src) (slot off : Nat) : Nat :=
  match src with
  | .host _ _ => 0x100000 + off
  | _ => 0x100000 + 4096 * slot + off

/-- A value with one bit set. -/
def withBit (v i : Nat) : Nat := v ||| 2 ^ i

/-- A value with one bit clear. -/
def withoutBit (v i : Nat) : Nat := v - (v &&& 2 ^ i)

/-- A write that no rule gives eyes to. -/
abbrev plainWrite (src : Src) (a : RegAcc) (s : State) : State := writeAccess none src a s

/-- HEAT_CLEAR: EPOCH and FREEZE are written as they stand. -/
def heatClearWrite (src : Src) (slot : Nat) (s : State) : State :=
  let own : Nat := match src with
    | .host p r => ((doeEntry p r.toNat s).map (fun k => fget (PRT_AGENT_SLOT p k) s)).getD slot
    | _ => slot
  plainWrite src (wideAcc (cmpAddr src slot 0x40) (fget (CMP_HEAT_CTL_EPOCH own) s + 16 * fget (CMP_HEAT_CTL_FREEZE own) s + 32)) s

/-- An ASID command: GO with an OP (R202). -/
def asidWrite (op : Nat) (src : Src) (slot : Nat) (a : RegAcc) (s : State) : State :=
  plainWrite src (forcedAcc (cmpAddr src slot 0x300) a (2 ^ 16 + 2 ^ 17 + 2 ^ 18) (op * 2 ^ 16 + 2 ^ 20)) s

/-- A write to a sluice's register; a host names the sluice by its place in its window. -/
def slcWrite (off : Nat) (src : Src) (k v : Nat) (s : State) : State := plainWrite src (wideAcc (2 ^ 24 + 256 * k + off) v) s

/-- A half or the whole of one register, as the command gives it. -/
def regAcc (reg : Nat) (a : RegAcc) : RegAcc := { a with addr := BitVec.ofNat 64 (reg + a.addr.toNat % 8) }

/-- BAD_SIZE_ACCESS (R9). -/
def badSize (write : Bool) (s : State) : State :=
  if write then finc GLB_BAD_ACCESS_CNT s else emit (.readData (BitVec.allOnes 64)) s

/-- REG_WRITE (R521). R521 names no completion for a write that R490 ignores: 0x00 or 0x03, a free bit. -/
def regWriteCmd (m : MgtReq) (addr value : BitVec 64) (s : State) : State :=
  let a : RegAcc := { addr, wide := true, value }
  let ignored : Bool := match landing .mgmt addr.toNat s with
    | some r => alignedAcc a && guarded .mgmt (wrOf r true value.toNat) s
    | none => false
  let s := plainWrite .mgmt a s
  if !ignored then answer m 0 [] s else
  let (b, s) := takeFree 1 s
  answer m (3 * b.toNat) [] s

/-- REG_READ (R521): up to 16 consecutive 64-bit reads. A read of ENG_RAK_STATUS finds FORCING as it is now (R347). -/
def regReadCmd (m : MgtReq) (addr count : Nat) (s : State) : State :=
  if count > 16 then answer m 2 [] s
  else
    let s := s |> onlyIf ((List.range count).any (fun i => addr + 8 * i == 0x640000)) showForcing
    answer m 0 ((List.range count).flatMap (fun i => natLe 8 (readAccess (addr + 8 * i) s))) s

/-- REGISTER_WRITE (R12). -/
def execRegisterWrite (src : Src) (a : RegAcc) (s : State) := ok (plainWrite src a s)
/-- BAD_SIZE_ACCESS (R9). -/
def execBadSizeAccess (write : Bool) (_addr : BitVec 64) (s : State) := ok (badSize write s)
/-- BRL_WRITE (R18): the access is moved into the BRL block. -/
def execBrlWrite (src : Src) (a : RegAcc) (s : State) :=
  ok (plainWrite src { a with addr := BitVec.ofNat 64 (0xD00000 + a.addr.toNat % 2 ^ 20) } s)
/-- HEAT_CLEAR (R79). -/
def execHeatClear (src : Src) (slot : Fin 64) (s : State) := ok (heatClearWrite src slot s)
/-- BEAT (R110). -/
def execBeat (src : Src) (slot : Fin 64) (agent : BitVec 8) (s : State) :=
  ok (plainWrite src (wideAcc (cmpAddr src slot 0x88) (agent.toNat + 2 ^ 8)) s)
/-- RESUME (R114). -/
def execResume (src : Src) (slot : Fin 64) (job : BitVec 16) (s : State) :=
  ok (plainWrite src (wideAcc (cmpAddr src slot 0x80) (job.toNat + 2 ^ 16)) s)
/-- FAB_ROUTE_WRITE (R163). -/
def execFabRouteWrite (src : Src) (d : BitVec 12) (a : RegAcc) (s : State) := ok (plainWrite src (regAcc (0x408000 + 8 * d.toNat) a) s)
/-- SLUICE_ENABLE (R182): SLC_CTL with ENABLE = 1. -/
def execSluiceEnable (src : Src) (k : BitVec 16) (v : BitVec 64) (s : State) := ok (slcWrite 0 src k.toNat (withBit v.toNat 0) s)
/-- SLUICE_DISABLE (R182): SLC_CTL with ENABLE = 0. -/
def execSluiceDisable (src : Src) (k : BitVec 16) (v : BitVec 64) (s : State) := ok (slcWrite 0 src k.toNat (withoutBit v.toNat 0) s)
/-- SQ_DOORBELL (R181). -/
def execSqDoorbell (src : Src) (k : BitVec 16) (v : BitVec 64) (s : State) := ok (slcWrite 0x18 src k.toNat v.toNat s)
/-- CQ_DOORBELL (R181). -/
def execCqDoorbell (src : Src) (k : BitVec 16) (v : BitVec 64) (s : State) := ok (slcWrite 0x20 src k.toNat v.toNat s)
/-- SLC_IRQ_WRITE (R197). -/
def execSlcIrqWrite (src : Src) (k : BitVec 16) (v : BitVec 64) (s : State) := ok (slcWrite 0x30 src k.toNat v.toNat s)
/-- GLB_FEAT_ACCEPT_WRITE (R553). -/
def execGlbFeatAcceptWrite (src : Src) (k : Fin 4) (a : RegAcc) (s : State) := ok (plainWrite src (regAcc (0x40 + 8 * k.val) a) s)
/-- ASID_CREATE (R202). -/
def execAsidCreate (src : Src) (slot : Fin 64) (a : RegAcc) (s : State) := ok (asidWrite 0 src slot a s)
/-- ASID_DESTROY (R202). -/
def execAsidDestroy (src : Src) (slot : Fin 64) (a : RegAcc) (s : State) := ok (asidWrite 1 src slot a s)
/-- INVAL_DRAIN (R217). -/
def execInvalDrain (src : Src) (slot : Fin 64) (a : RegAcc) (s : State) := ok (asidWrite 2 src slot a s)
/-- INVAL_ABORT (R218). -/
def execInvalAbort (src : Src) (slot : Fin 64) (a : RegAcc) (s : State) := ok (asidWrite 3 src slot a s)
/-- REROOT (R202). -/
def execReroot (src : Src) (slot : Fin 64) (a : RegAcc) (s : State) := ok (asidWrite 4 src slot a s)
/-- RETRAIN (R394). -/
def execRetrain (src : Src) (p : Fin 24) (v : BitVec 64) (s : State) :=
  ok (plainWrite src (wideAcc (0x500008 + 0x4000 * p.val) (withBit v.toNat 0)) s)
/-- MARGIN_NOW (R401). -/
def execMarginNow (src : Src) (p : Fin 24) (v : BitVec 64) (eyes : List (Fin 9 × BitVec 8 × BitVec 8)) (s : State) :=
  ok (writeAccess (some eyes) src (wideAcc (0x500008 + 0x4000 * p.val) (withBit v.toNat 1)) s)
/-- AGENT_ENTRY_WRITE (R393). -/
def execAgentEntryWrite (src : Src) (p : Fin 24) (k : Fin 16) (a : RegAcc) (s : State) :=
  ok (plainWrite src (regAcc (0x500200 + 0x4000 * p.val + 8 * k.val) a) s)
/-- RETURN (R417). -/
def execReturnMain (src : Src) (v : BitVec 64) (s : State) := ok (plainWrite src (wideAcc 0x800008 (withBit v.toNat 0)) s)
/-- PWR_WAKE_WRITE (R423). -/
def execPwrWakeWrite (src : Src) (v : BitVec 64) (s : State) := ok (plainWrite src (wideAcc 0x900018 v.toNat) s)
/-- RENEW (R434). -/
def execRenew (src : Src) (v : BitVec 64) (s : State) := ok (plainWrite src (wideAcc 0x900028 (withBit v.toNat 0)) s)
/-- LAYER_SPARE_NOW (R452). -/
def execLayerSpareNow (src : Src) (v : BitVec 64) (s : State) := ok (plainWrite src (wideAcc 0xA00008 (withBit v.toNat 21)) s)
/-- FAIL (R465). -/
def execFailCmd (src : Src) (v : BitVec 64) (s : State) := ok (plainWrite src (wideAcc 0xA00010 (withBit v.toNat 6)) s)
/-- PAN_CLEAR (R460). -/
def execPanClear (src : Src) (v : BitVec 64) (s : State) := ok (plainWrite src (wideAcc 0xA00018 (withBit v.toNat 12)) s)
/-- RESTART (R517). -/
def execRestartWrite (src : Src) (v : BitVec 64) (s : State) := ok (plainWrite src (wideAcc 0xC00018 (withBit v.toNat 0)) s)
/-- MGT_FW_FAILOVER (R513). -/
def execMgtFwFailover (src : Src) (v : BitVec 64) (s : State) := ok (plainWrite src (wideAcc 0xC00018 (withBit v.toNat 1)) s)
/-- REG_READ (R521). -/
def execRegRead (m : MgtReq) (addr : BitVec 64) (count : BitVec 8) (s : State) := ok (mgtCmd m (regReadCmd m addr.toNat count.toNat) s)
/-- REG_WRITE (R521): a 64-bit write of management. -/
def execRegWrite (m : MgtReq) (addr value : BitVec 64) (s : State) := ok (mgtCmd m (regWriteCmd m addr value) s)

end Sys2Proof.Machine
end

