-- ==== Sys2Proof/Machine/Retain.lean ====
section
/-! DEFINITION. Retention (R483, R544 to R546) and the bring-up of compositions when a Slosin joins (R542). -/

namespace Sys2Proof.Machine

/-! ### The digest of a composition's capacity (R544) -/

/-- A line as it is sealed: ciphertext under the composition's key, at its physical line. -/
def sealedLine (key pl : Nat) (s : State) : List Byte := lineBytes (Config.ciphertext key pl (cellLine pl s))

/-- The 16-bit mark symbol of a line (R450): bittern mark, TRACKED bit, reserved bits. -/
def markSymbol (pl : Nat) (s : State) : List Byte :=
  natLe 2 (b2n (isBittern pl s) + 2 * b2n (kmem s.mem.tracked pl) + 4 * Config.markReserved.toNat)

/-- What one page contributes. -/
def sealedPage (key page : Nat) (s : State) : List Byte :=
  if !isWritten page s then [0]
  else
    let ls := (List.range 64).map (fun i => page * 64 + i)
    (1 : Byte) :: ls.flatMap (fun l => sealedLine key l s) ++ ls.flatMap (fun l => markSymbol l s)

/-- The physical base addresses of a composition's frames in frame-table order, near frames first. -/
def capacityFrames (c : Comp) : List Nat := c.near.map (· * frameBytes) ++ (c.far.filterMap (fun f => f)).map farFrameAddr

/-- The TREE digest over a composition's capacity on this Slosin. -/
def capacityDigest (c : Comp) (s : State) : List Byte :=
  let key := ((kget? s.sec.keys c.keySlot).map (·.key)).getD 0
  treeHash ((capacityFrames c).flatMap (fun a => (List.range 512).flatMap (fun i => sealedPage key (a / 4096 + i) s)))

/-- The expanders whose frames a composition holds: port and incarnation. -/
def usedExpanders (c : Comp) (s : State) : List (Nat × Nat) :=
  (s.mem.expanders.filter (fun e => c.far.any (fun f => f.any (fun x => x / 2 ^ 21 == e.port)))).map (fun e => (e.port, e.incarnation))

/-! ### SEAL -/

/-- SEAL: the hash over a composition starts (R544). -/
def retainSeal (m : MgtReq) (cmpId : Nat) (s : State) : State :=
  match compById cmpId s with
  | none => answer m 2 [] s
  | some _ => { s with mgt := { s.mgt with sealing := s.mgt.sealing ++ [{ cmpId, tag := m.tag.toNat }] } }

/-- The bytes of a seal, in the order R544 gives them. -/
def sealBytes (c : Comp) (k : Seal) (s : State) : List Byte :=
  natLe 8 (fget GLB_UID s) ++ natLe 2 c.cmpId ++ natLe 1 k.keySlot ++ natLe 2 k.incarnation
    ++ k.expanders.flatMap (fun e => natLe 2 e.2) ++ natLe 8 k.nearBytes ++ natLe 8 k.farBytes ++ k.digest

/-- SEAL_HASH_DONE: the signed seal is answered and kept in PD38; a write that landed meanwhile ends the command as busy. -/
def sealHashDone (cmpId : Nat) (s : State) : State :=
  match s.mgt.sealing.find? (fun x => x.cmpId == cmpId) with
  | none => s
  | some x =>
    let s := { s with mgt := { s.mgt with sealing := s.mgt.sealing.erase x } }
    match compById cmpId s with
    | none => emit (.answer x.tag 2 []) s
    | some c =>
      if x.dirty then emit (.answer x.tag 1 []) s
      else
        let k : Seal := { keySlot := c.keySlot, incarnation := fget FAB_NODE_INCARNATION s, expanders := usedExpanders c s,
                          nearBytes := c.nearBytes, farBytes := c.farBytes, digest := capacityDigest c s }
        let b := sealBytes c k s
        { s with mgt := { s.mgt with seals := kput s.mgt.seals cmpId k } } |> emit (.answer x.tag 0 (b ++ Config.signature 0 b))

/-! ### Frames that a composition keeps over a reset (R542) -/

/-- The frame table that the last reset left of a composition. -/
def oldTable (c : Comp) (s : State) : Option Comp := s.img.kept.find? (fun k => k.cmpId == c.cmpId)

/-- Its key slot is held unused since a cold reset (R483). -/
def keyHeld (c : Comp) (s : State) : Bool := (kget? s.sec.keys c.keySlot).any (·.held)

/-- The composition keeps its key and contents: after a warm reset, or once its retention is confirmed (R483, R545). -/
def keepsKey (c : Comp) (s : State) : Bool := keyMatches c s && (!keyHeld c s || bitAt (fget MGT_RETAIN_OK s) c.slot)

/-- Put back the near frames of a composition that keeps them; far frames wait for the expanders. -/
def takeFrames (c : Comp) (s : State) : State :=
  match oldTable c s with
  | none => s
  | some o =>
    let rf := c.harvestReserve / frameBytes
    let rn := min rf o.resvNear.length
    modHolder c.slot (fun x => { x with
      near := o.near.take (c.nearBytes / frameBytes), far := List.replicate (c.farBytes / frameBytes) none,
      resvNear := o.resvNear.take rn, resvFar := List.replicate (min o.resvFar.length (rf - rn)) none }) s

/-- The seal kept in PD38 agrees with an assertion and with the image's entry, and the key is still held (R545). -/
def sealMatches (c : Comp) (inc : Nat) (digest : List Byte) (s : State) : Bool :=
  keyMatches c s && (oldTable c s).isSome &&
    (kget? s.mgt.seals c.cmpId).any (fun k => k.incarnation == inc && k.digest == digest && k.keySlot == c.keySlot
      && k.nearBytes == c.nearBytes && k.farBytes == c.farBytes)

/-- A bit of MGT_RETAIN_OK or MGT_RETAIN_FAIL. -/
def setRetainBit (f : Fld) (slot : Nat) (s : State) : State := fset f (fget f s ||| 2 ^ slot) s

/-- An asserted composition of the applied image: its fresh hash starts, or its retention is refused. -/
def startRetain (c : Comp) (s : State) : State :=
  match kget? s.mgt.asserts c.cmpId with
  | none => s
  | some (inc, d) =>
    if kmem s.mgt.hashing c.slot || bitAt (fget MGT_RETAIN_OK s) c.slot then s
    else if sealMatches c inc d s then
      takeFrames c { s with mgt := { s.mgt with hashing := kput s.mgt.hashing c.slot () } }
    else setRetainBit MGT_RETAIN_FAIL c.slot s

/-- What the application of an image does to the key store and the kept frames (R483, R545), and to Beryl's counters. -/
def imageApplied (s : State) : State :=
  let l := s.img.waiting
  let wanted (k : Nat) (x : KeySlot) : Bool := l.any (fun c => c.cmpId == x.cmpId && c.keySlot == k)
  let gone := (s.sec.keys.filter (fun k => !wanted k.1 k.2)).map (·.1)
  let s := s |> meterPrune s.img.kept (l.map (·.cmpId)) |> fset MGT_RETAIN_OK 0 |> fset MGT_RETAIN_FAIL 0 |> each gone destroyKey
  let s := { s with img := { s.img with kept := s.img.kept.filter (fun o => l.any (fun c => c.cmpId == o.cmpId && keyMatches c s)) } }
  each l (fun c s => if keyMatches c s && !keyHeld c s then takeFrames c s else startRetain c s) s

/-! ### Bring-up (R542) -/

/-- Pairs (old slot, new slot) of the compositions that keep their contents. -/
def slotMoves (s : State) : List (Nat × Nat) :=
  s.img.waiting.filterMap (fun c => if keepsKey c s then (oldTable c s).map (fun o => (o.slot, c.slot)) else none)

/-- Move the entries of a table keyed slot·`n` + rest to their composition's new slot; the others are dropped. -/
def moveKeys {α : Type} (moves : List (Nat × Nat)) (n : Nat) (m : KMap α) : KMap α :=
  m.foldl (fun t e =>
    match moves.find? (fun x => x.1 == e.1 / n) with
    | some x => kput t (x.2 * n + e.1 % n) e.2
    | none => t) []

/-- Harvests, views, advice and heat follow the compositions that keep their contents; those of the others are gone. -/
def moveRecords (s : State) : State :=
  let mv := slotMoves s
  let newSlot (slot : Nat) : Option Nat := (mv.find? (fun x => x.1 == slot)).map (·.2)
  { s with
    hv := { s.hv with
      regions := s.hv.regions.filterMap (fun r => (newSlot r.slot).map (fun t => { r with slot := t })),
      views := s.hv.views.filterMap (fun v => (newSlot v.slot).map (fun t => { v with slot := t })),
      viewGen := moveKeys mv 4096 s.hv.viewGen, warned := moveKeys mv 1 s.hv.warned },
    mem := { s.mem with advice := moveKeys mv (2 ^ 26) s.mem.advice, heat := moveKeys mv (2 ^ 26) s.mem.heat } }

/-- A line lies in a near frame of a composition's window. -/
def inWindow (c : Comp) (l : Nat) : Bool := c.near.contains (l * 64 / frameBytes)

/-- Under COHERENCE = 0, every TRACKED line of a composition that keeps its contents becomes bittern, and its bit is cleared. -/
def trackedBittern (c : Comp) (s : State) : State :=
  let mine := (s.mem.tracked.map (·.1)).filter (inWindow c)
  let s := { s with mem := { s.mem with tracked := kkeep s.mem.tracked (fun l => !inWindow c l) } }
  if c.software then s else
  each mine (fun l s =>
    { s with mem := { s.mem with written := kin s.mem.written (l / 64) true } } |> setBittern c.slot l true) s

/-- A key can be generated now (R479, R486). -/
def canKey (entropyOk : Bool) (s : State) : Bool := entropyOk && !fbit SEC_STATUS_DEBUG_UNLOCKED s

/-- One composition comes up: its key, its registers, ACTIVE. One that needs a key and can get none stays waiting. -/
def bringUp (entropyOk : Bool) (c : Comp) (s : State) : State :=
  let keep := keepsKey c s
  if !keep && !canKey entropyOk s then s else
  let c := ((s.img.waiting.find? (fun x => x.slot == c.slot)).getD c)
  let s := { s with comps := s.comps ++ [{ c with state := .active }],
                    img := { s.img with waiting := s.img.waiting.filter (fun x => x.slot != c.slot) } }
  let s := if keep then { s with sec := { s.sec with keys := s.sec.keys.map (fun k => if k.1 = c.keySlot then (k.1, { k.2 with held := false }) else k) } }
    else s |> freshWindow c.slot |> generateKey c
  s |> meterResume c |> showState c.slot |> showOffer c.slot |> showKeyGen c |> updateUse c.slot

/-- Regions of a kept composition follow their bytes over a change of mapping (assumption 90), and those that overlap
capacity its new entry takes away end. -/
def trimRegions (c : Comp) (s : State) : State :=
  match oldTable c s with
  | some o => s |> endRegions { o with slot := c.slot } c.nearBytes c.farBytes false |> rebaseRegions c.slot o c
  | none => s

/-- This Slosin joins the pool (R540), and every composition that no hash holds back comes up. -/
def joinPool (entropyOk : Bool) (s : State) : State :=
  let hashing (c : Comp) : Bool := kmem s.mgt.hashing c.slot
  let s := s |> fset FAB_NODE_JOINED 1 |> fset FAB_FORM_PHASE 4
  let s := each s.img.waiting (fun c s =>
    if keepsKey c s || hashing c then s
    else modHolder c.slot (fun x => { x with near := [], far := [], resvNear := [], resvFar := [] }) s) s
  let starved := s.img.waiting.any (fun c => !hashing c && !keepsKey c s) && !entropyOk
  let now := s.img.waiting.filter (fun c => !hashing c)
  let kept := now.filter (fun c => keepsKey c s)
  let s := s |> moveRecords |> growAll (s.img.waiting.map (·.slot)) |> each now (bringUp entropyOk)
  let s := each kept (fun c s => match compAt c.slot s with | some x => trackedBittern x s | none => s) s
  let s := { s with mem := { s.mem with tracked := kkeep s.mem.tracked (fun l => s.img.waiting.any (fun c => inWindow c l)) } }
  s |> each kept trimRegions |> onlyIf starved entropyFailed |> allotIfReady

/-- RETAIN_HASH_DONE: the fresh hash decides (R545). Far frames must have been settled. -/
def retainHashDone (slot : Nat) (entropyOk : Bool) (s : State) : State :=
  match s.img.waiting.find? (fun c => c.slot == slot) with
  | none => s
  | some c =>
    if !kmem s.mgt.hashing slot || (c.farBytes > 0 && !s.mem.allotted) then s else
    let same := (kget? s.mgt.asserts c.cmpId).any (fun a => a.2 == capacityDigest c s)
    let s := { s with mgt := { s.mgt with hashing := kdel s.mgt.hashing slot } }
    let s := if same then setRetainBit MGT_RETAIN_OK slot s
      else s |> setRetainBit MGT_RETAIN_FAIL slot |> freeNear (c.near ++ c.resvNear) |> freeFars (c.far ++ c.resvFar)
    if !fbit FAB_NODE_JOINED s then s
    else
      let s := if same then trackedBittern c s
        else { s with mem := { s.mem with tracked := kkeep s.mem.tracked (fun l => !inWindow c l) } }
      s |> bringUp entropyOk c |> onlyIf (!same && !entropyOk) entropyFailed

/-! ### ASSERT -/

/-- The expanders that wait for an assertion naming their old incarnation and the digest of a seal that used them (R546). -/
def assertedExpanders (cmpId inc : Nat) (digest : List Byte) (s : State) : List Nat :=
  (s.mem.expanders.filter (fun e => e.retainWait && e.incarnation == inc + 1 &&
    (kget? s.mgt.seals cmpId).any (fun k => k.digest == digest && k.expanders.contains (e.port, inc)))).map (·.port)

/-- ASSERT: kept until the Slosin joins (R545); frames of a returned expander enter service with it (R546). -/
def retainAssert (m : MgtReq) (cmpId inc : Nat) (digest : List Byte) (s : State) : State :=
  let ports := assertedExpanders cmpId inc digest s
  let joined := fbit FAB_NODE_JOINED s
  if joined && ports.isEmpty then answer m 3 [] s
  else
    let s := each ports (fun p s => expanderServe p true s) s
    let names := ports.isEmpty || (kget? s.mgt.seals cmpId).any (fun k => k.incarnation == inc)
    let s := if joined || !names then s else
      let s := { s with mgt := { s.mgt with asserts := kput s.mgt.asserts cmpId (inc, digest) } }
      each (s.img.waiting.filter (fun c => c.cmpId == cmpId && keyHeld c s)) startRetain s
    answer m 0 [] s

/-- SEAL (R544). -/
def execRetainSeal (m : MgtReq) (cmpId : BitVec 16) (s : State) := ok (mgtCmd m (retainSeal m cmpId.toNat) s)
/-- SEAL_HASH_DONE (R544). -/
def execSealHashDone (cmpId : BitVec 16) (s : State) := ok (sealHashDone cmpId.toNat s)
/-- ASSERT (R545, R546). -/
def execRetainAssert (m : MgtReq) (cmpId inc : BitVec 16) (digest : List Byte) (s : State) :=
  ok (mgtCmd m (retainAssert m cmpId.toNat inc.toNat digest) s)
/-- RETAIN_HASH_DONE (R545). -/
def execRetainHashDone (slot : Fin 64) (entropyOk : Bool) (s : State) := ok (retainHashDone slot entropyOk s)

end Sys2Proof.Machine
end

