-- ==== Sys2Proof/Machine/Formation.lean ====
section
/-! DEFINITION. Start-up and pool formation (R534 to R541, R547), and the pool's master and standby master (R518). -/

namespace Sys2Proof.Machine

/-! ### Candidates and the best of them (R534, R537) -/

/-- This Slosin is healthy and may be master (R534). -/
def isCandidate (s : State) : Bool :=
  s.mgt.postOk && s.img.configured && fbit GLB_PKG_STATUS_STRAP_MCAP s && s.img.masterCapable

/-- This Slosin's STRAP_ID. -/
def myStrap (s : State) : Nat := fget GLB_PKG_STATUS_STRAP_ID s

/-- A candidate is better: the lower STRAP_ID, then the lower NODE_ID. -/
def better (a b : Best) : Bool := a.strap < b.strap || (a.strap == b.strap && a.node < b.node)

/-- Change the election. -/
def modElection (f : Election → Election) (s : State) : State := { s with mgt := { s.mgt with election := f s.mgt.election } }

/-- The highest pool epoch known here. -/
def knownEpoch (s : State) : Nat := max (fget FAB_FORM_POOL_EPOCH s) s.mgt.election.heard

/-- The election starts once the image is applied: a candidate is its own best. -/
def startElection (s : State) : State :=
  s |> modElection (fun e => { e with best := if isCandidate s then some ⟨myStrap s, myNode s⟩ else none }) |> fset FAB_FORM_PHASE 1

/-- Fabric ports that carry packets. -/
def fabricPorts (s : State) : List Nat := (List.range 24).filter (fun p => fabricUp p s)

/-! ### Hello packets (R536) -/

/-- Word 2 of a Hello of this Slosin. -/
def helloWord (kind : Nat) (s : State) : Nat :=
  let b := match s.mgt.election.best with
    | some b => b.strap % 2 ^ 10 * 2 ^ 8 + b.node % 2 ^ 12 * 2 ^ 18 + 2 ^ 30
    | none => 0
  kind + b + knownEpoch s % 2 ^ 16 * 2 ^ 32

/-- A Hello: both incarnations are 0. -/
def helloPkt (kind dst level : Nat) (s : State) : Pkt :=
  let k := mkPkt 0x80 dst 0 0 (helloWord kind s) level [] false 2 s
  { k with hdr := { k.hdr with srcInc := 0, dstInc := 0 } }

/-- Send a Hello to the far end of a fabric port. -/
def sendHello (kind level p : Nat) (s : State) : State :=
  match neighbourOf p s with
  | some (n, _) => sendOn p (helloPkt kind n level s) s
  | none => s

/-- Fields of a Hello. -/
def helloKind (h : Hdr) : Nat := bitsOf h.pa.toNat 0 8
/-- See `helloKind`. -/
def helloBest (h : Hdr) : Option Best := if bitAt h.pa.toNat 30 then some ⟨bitsOf h.pa.toNat 8 10, bitsOf h.pa.toNat 18 12⟩ else none
/-- See `helloKind`. -/
def helloEpoch (h : Hdr) : Nat := bitsOf h.pa.toNat 32 16

/-- A Hello of one kind reaches its command. -/
def onHello (kind : Nat) (h : Hdr) (f : State → State) (s : State) : State :=
  if helloKind h ≠ kind || !s.img.configured then s else onHdr 0x80 h f s

/-! ### Election (R537, R538, R547 step 2) -/

/-- Set a sticky bit of FAB_FORM; its rise raises FABRIC_PROTOCOL (R538). -/
def dupFound (f : Fld) (data : Nat) (s : State) : State :=
  if fbit f s then s else s |> fset f 1 |> eventD 0x0024 0 data

/-- The partition of this Slosin yields to a master heard of (R518): the news goes on, and the Slosin rejoins from step 3 of
R532 as after a warm reset (R547). -/
def yieldTo (p : Nat) (b : Best) (epoch : Nat) (s : State) : State :=
  s |> modElection (fun e => { e with best := some b, heard := max e.heard epoch })
    |> each ((fabricPorts s).filter (· ≠ p)) (sendHello 1 0) |> warmReset

/-- An ELECT heard by a joined Slosin: a better partition is yielded to; anything else that differs is answered with the
current master and POOL_EPOCH. -/
def electJoined (p : Nat) (best : Option Best) (epoch : Nat) (s : State) : State :=
  let mine := fget FAB_FORM_POOL_EPOCH s
  match best with
  | none => sendHello 1 0 p s
  | some b =>
    if b.node = fget FAB_FORM_MASTER_NODE s && epoch = mine then s
    else
      let lower : Bool := s.mgt.election.best.all (fun x => b.strap < x.strap)
      if epoch > mine || (epoch = mine && epoch ≠ 0 && b.node ≠ fget FAB_FORM_MASTER_NODE s && lower) then yieldTo p b epoch s
      else sendHello 1 0 p s

/-- A joined neighbour answered: JOIN_REQ goes to the master through it (R547 step 3). -/
def joinThrough (p : Nat) (b : Best) (s : State) : State :=
  let s := s |> modElection (fun e => { e with best := some b }) |> fset FAB_NODE_MASTER 0 |> fset FAB_FORM_MASTER_NODE b.node |> fset FAB_FORM_PHASE 3
  let s := { s with fab := { s.fab with parent := some p } }
  sendOn p (helloPkt 3 b.node 0 s) s

/-- ELECT. -/
def onElect (p : Nat) (h : Hdr) (s : State) : State :=
  let epoch := helloEpoch h
  let best := helloBest h
  let s := if best.any (fun b => b.strap == myStrap s && b.node != myNode s) then dupFound FAB_FORM_DUP_STRAP_STK 1 s else s
  if fbit FAB_NODE_JOINED s then electJoined p best epoch s else
  let s := modElection (fun e => { e with heard := max e.heard epoch }) s
  match best with
  | none => s
  | some b =>
    if epoch ≠ 0 then
      (if fget FAB_FORM_PHASE s = 3 && fget FAB_FORM_MASTER_NODE s = b.node then s else joinThrough p b s)
    else if s.mgt.election.best.all (fun x => better b x) then
      let s := modElection (fun e => { e with best := some b }) s
      each (fabricPorts s) (sendHello 1 0) s
    else s

/-- A port's link is up (R394, R537): a fabric port carries an ELECT at once. -/
def portUp (p : Nat) (s : State) : State :=
  let was := fbit (PRT_STATUS_LINK_UP p) s
  let s := linkUp p s
  if !was && fabricUp p s && s.img.configured then sendHello 1 0 p s else s

/-! ### Incarnations and routes (R173, R540) -/

/-- The incarnation after one, skipping 0. -/
def nextInc (n : Nat) : Nat := if (n + 1) % 2 ^ 16 = 0 then 1 else (n + 1) % 2 ^ 16

/-- An Incarnation packet for node `n`, to node `x`, under given incarnations of its two ends (assumption 17). -/
def incPkt (x n src dst : Nat) (s : State) : Pkt :=
  let k := mkPkt 0x85 x 0 0 0 (n + fget (peerIncFld n) s * 2 ^ 16) [] false 2 s
  { k with hdr := { k.hdr with srcInc := BitVec.ofNat 16 src, dstInc := BitVec.ofNat 16 dst } }

/-- The master tells a node that joins every incarnation: the master's own first, then the node's, then the rest. -/
def tellAll (nodes : List Nat) (x : Nat) (s : State) : State :=
  let me := myNode s
  let own := fget FAB_NODE_INCARNATION s
  let rest := nodes.filter (fun n => n ≠ me && n ≠ x)
  s |> route (incPkt x me 0 0 s) |> route (incPkt x x own 0 s)
    |> each rest (fun n s => route (incPkt x n own (fget (peerIncFld x) s) s) s)

/-- One route table entry on its way: written here, or sent in a RouteSet (assumption 17). -/
def deliverRoute (r : RouteOp) (s : State) : State :=
  if r.node.toNat = myNode s then
    writeAccess none .firmware (wideAcc (0x408000 + 8 * r.dst.toNat) r.value.toNat) s
  else send 0x81 r.node.toNat 0 0 0 (r.dst.toNat + 2 ^ 12) [BitVec.ofNat 128 r.value.toNat, 0] false s

/-- ROUTE_SET (R163): up to four consecutive entries. -/
def onRouteSet (k : Pkt) (s : State) : State :=
  let o := k.hdr.oparg.toNat
  let n := min 4 (bitsOf o 12 4)
  let data := slotsNat k.body
  each (List.range n) (fun i s =>
    writeAccess none .firmware (wideAcc (0x408000 + 8 * ((o + i) % 4096)) (bitsOf data (64 * i) 64)) s) s

/-! ### Discovery (R539) -/

/-- One report: the OPARG and the 32 data bytes. -/
def reportOf (half : Nat) (s : State) : Nat × List (BitVec 128) :=
  let arg := half + 2 * b2n (isCandidate s) + myStrap s * 4 + 3 * 2 ^ 12
  let port (i : Nat) : Nat :=
    let p := 12 * half + i
    if roleOf p s ≠ 3 then 0 else
    let n := ((neighbourOf p s).map (·.1)).getD 0
    n % 4096 + b2n (fabricUp p s) * 2 ^ 12 + b2n (fget (PRT_STATUS_WIDTH p) s == 1) * 2 ^ 13
  let x := fget GLB_UID s + (List.range 12).foldl (fun a i => a + port i * 2 ^ (64 + 16 * i)) 0
  (arg, [BitVec.ofNat 128 x, BitVec.ofNat 128 (x / 2 ^ 128)])

/-- Send the master both reports. -/
def sendReports (s : State) : State :=
  each [0, 1] (fun h s =>
    let r := reportOf h s
    send 0x88 (fget FAB_FORM_MASTER_NODE s) 0 0 0 r.1 r.2 false s) s

/-- PROBE: the first one makes its port the parent; a Slosin that has joined, or the master, takes none. -/
def onProbe (p : Nat) (h : Hdr) (s : State) : State :=
  let level := h.oparg.toNat
  if fbit FAB_NODE_JOINED s || isMaster s || s.mgt.election.probed then s else
  match helloBest h with
  | none => s
  | some b =>
    let s := modElection (fun e => { e with best := some b, heard := max e.heard (helloEpoch h), probed := true }) s
    let s := { s with fab := { s.fab with parent := some p } }
    let s := s |> fset FAB_FORM_MASTER_NODE b.node |> fset FAB_FORM_LEVEL level |> fset FAB_FORM_PHASE 2 |> sendReports
    if level < 8 then each ((fabricPorts s).filter (· ≠ p)) (sendHello 2 (level + 1)) s else s

/-- A report reaches the master: of two Slosins with one NODE_ID, the lower TARGET_UID stays (R538). -/
def onReport (k : Pkt) (s : State) : State :=
  if !isMaster s then s else
  let n := k.hdr.src.toNat
  let o := k.hdr.oparg.toNat
  let x := slotsNat k.body
  let uid := x % 2 ^ 64
  let known := ((s.mgt.election.reports.filter (fun e => e.1 / 2 == n)).map (·.2.2.1)).head?
  let entry := (bitsOf o 1 11, uid, (List.range 12).map (fun i => bitsOf x (64 + 16 * i) 16))
  match known with
  | some u =>
    if uid > u then s
    else
      let kept := if uid < u then s.mgt.election.reports.filter (fun e => e.1 / 2 != n) else s.mgt.election.reports
      modElection (fun e => { e with reports := kput kept (2 * n + o % 2) entry }) s
  | none => modElection (fun e => { e with reports := kput e.reports (2 * n + o % 2) entry }) s

/-- The nodes whose two reports have arrived. -/
def reportedNodes (s : State) : List Nat :=
  let r := s.mgt.election.reports
  (r.filter (fun e => e.1 % 2 == 0 && (kget? r (e.1 + 1)).isSome)).map (fun e => e.1 / 2)

/-- The next candidate in the order of R537, among the nodes that reported. -/
def nextCandidate (s : State) : Option Best :=
  (reportedNodes s).foldl (fun a n =>
    match kget? s.mgt.election.reports (2 * n) with
    | some (c, _, _) =>
      let b : Best := ⟨c / 2, n⟩
      if c % 2 = 1 && a.all (fun x => better b x) then some b else a
    | none => a) none

/-- The master's own part of the join: the pool is formed. -/
def formPool (nodes : List Nat) (entropyOk : Bool) (s : State) : State :=
  let s := s |> fset FAB_NODE_JOINED 1 |> showNodes
  let missing := s.img.poolSize - (nodes.length + 1)
  let sb := fget FAB_FORM_STANDBY_NODE s
  let s := if sb = myNode s then s else s |> sendState 1 sb |> sendState 2 sb
  s |> each (fabricPorts s) (sendHello 4 0) |> onlyIf (missing > 0) (event 0x0026 0 0xFFFF missing) |> joinPool entropyOk

/-- The election is over: the candidate that is its own best becomes master. A pool of one joins at once; otherwise the
discovery starts (R539 step 1, R541). -/
def electionConcluded (entropyOk : Bool) (s : State) : State :=
  let ph := fget FAB_FORM_PHASE s
  if !s.img.configured || fbit FAB_NODE_JOINED s || (ph ≠ 1 && ph ≠ 5) then s
  else if !isCandidate s || s.mgt.election.best != some ⟨myStrap s, myNode s⟩ then s
  else
    let epoch := (s.mgt.election.heard + 1) % 2 ^ 16
    let s := s |> fset FAB_NODE_MASTER 1 |> fset FAB_FORM_MASTER_NODE (myNode s) |> fset FAB_FORM_STANDBY_NODE (myNode s)
      |> fset FAB_FORM_LEVEL 0 |> fset FAB_FORM_POOL_EPOCH epoch
    if s.img.poolSize = 1 then
      s |> setIncarnation (myNode s) (nextInc (fget (peerIncFld (myNode s)) s)) |> formPool [] entropyOk
    else s |> fset FAB_FORM_PHASE 2 |> each (fabricPorts s) (sendHello 2 1)

/-- Discovery ends (R540): a standby master, incarnations, routes, FORMED. -/
def discoveryEnd (routes : List RouteOp) (entropyOk : Bool) (s : State) : State :=
  if !isMaster s || fbit FAB_NODE_JOINED s || fget FAB_FORM_PHASE s ≠ 2 then s else
  let nodes := (reportedNodes s).filter (· ≠ myNode s)
  let all := myNode s :: nodes
  let s := s |> fset FAB_FORM_PHASE 3 |> fset FAB_FORM_STANDBY_NODE (((nextCandidate s).map (·.node)).getD (myNode s))
    |> each all (fun n s => setIncarnation n (nextInc (fget (peerIncFld n) s)) s)
  let mine := routes.filter (fun r => all.contains r.node.toNat)
  s |> each nodes (tellAll all) |> each mine deliverRoute |> formPool nodes entropyOk

/-- FORMED (R538, R540). -/
def onFormed (p : Nat) (h : Hdr) (entropyOk : Bool) (s : State) : State :=
  if fbit FAB_NODE_JOINED s then s else
  let known := fbit FAB_FORM_DUP_NODE_STK s
  let s := modElection (fun e => { e with best := helloBest h, heard := max e.heard (helloEpoch h) }) s
  if fget FAB_NODE_INCARNATION s = 0 then
    s |> dupFound FAB_FORM_DUP_NODE_STK 2 |> onlyIf (!known) (each ((fabricPorts s).filter (· ≠ p)) (sendHello 4 0))
  else
    let master := ((helloBest h).map (·.node)).getD (fget FAB_FORM_MASTER_NODE s)
    s |> fset FAB_FORM_MASTER_NODE master |> fset FAB_FORM_POOL_EPOCH (helloEpoch h)
      |> each ((fabricPorts s).filter (· ≠ p)) (sendHello 4 0) |> joinPool entropyOk

/-- FORM_TIMEOUT (R541). -/
def formTimeout (s : State) : State :=
  if !s.img.configured || fbit FAB_NODE_JOINED s || fget FAB_FORM_PHASE s = 5 then s
  else s |> fset FAB_FORM_FORM_FAIL_STK 1 |> fset FAB_FORM_PHASE 5

/-- ELECT_RESEND (R541). -/
def electResend (s : State) : State :=
  if fget FAB_FORM_PHASE s = 5 then each (fabricPorts s) (sendHello 1 0) s else s

/-- JOIN_REQ at the master (R547 steps 4 and 5). -/
def onJoinReq (h : Hdr) (routes : List RouteOp) (s : State) : State :=
  if !isMaster s || !fbit FAB_NODE_JOINED s || h.src.toNat = myNode s then s else
  let n := h.src.toNat
  let s := s |> setIncarnation n (nextInc (fget (peerIncFld n) s)) |> showNodes
  let joined := (List.range 4096).filter (fun d => fget (peerIncFld d) s ≠ 0 && !fbit (FAB_ROUTE_UNREACHABLE d) s)
  let own := fget FAB_NODE_INCARNATION s
  s |> tellAll joined n
    |> each (joined.filter (fun d => d ≠ n && d ≠ myNode s)) (fun d s => route (incPkt d n own (fget (peerIncFld d) s) s) s)
    |> each routes deliverRoute |> (fun s => route (helloPkt 4 n 0 s) s)

/-! ### The pool's state (R518) -/

/-- The standby master takes over the pool, under the next pool epoch, and declares the old master unreachable. Every node
hears of it in a commit. -/
def standbyTakeover (s : State) : State :=
  if !fbit FAB_NODE_JOINED s || !fbit FAB_NODE_STANDBY s then s else
  let old := fget FAB_FORM_MASTER_NODE s
  let me := myNode s
  let s := s |> fset FAB_NODE_MASTER 1 |> fset FAB_NODE_STANDBY 0 |> fset FAB_FORM_MASTER_NODE me |> fset FAB_FORM_STANDBY_NODE me
    |> fset FAB_FORM_LEVEL 0 |> fset FAB_FORM_POOL_EPOCH ((fget FAB_FORM_POOL_EPOCH s + 1) % 2 ^ 16)
    |> modElection (fun e => { e with best := some ⟨myStrap s, me⟩ })
  s |> broadcast (fun d s => if d = old then s else sendState 2 d s) |> collPeerLost old |> declareDown old

/-- A state copy arrives, stage or commit. The one that names this Slosin as standby makes it the standby master; one of a
later epoch names the master; a master whose epoch is lower, or on equal epochs whose STRAP_ID is higher, yields. -/
def onStateCopy (k : Pkt) (s : State) : State :=
  let w := slotsNat k.body
  let epoch := w % 2 ^ 16
  let strap := bitsOf w 16 10
  let sb := bitsOf w 26 12
  let src := k.hdr.src.toNat
  let mine := fget FAB_FORM_POOL_EPOCH s
  if !s.img.configured || epoch < mine then s
  else if isMaster s && fbit FAB_NODE_JOINED s then
    if epoch > mine || strap < myStrap s then warmReset s else s
  else
    s |> modElection (fun e => { e with heard := max e.heard epoch, best := some ⟨strap, src⟩ })
      |> fset FAB_FORM_MASTER_NODE src |> fset FAB_FORM_STANDBY_NODE sb |> fsetb FAB_NODE_STANDBY (sb == myNode s)
      |> onlyIf (fbit FAB_NODE_JOINED s) (fset FAB_FORM_POOL_EPOCH epoch)

/-- An event relayed to the master is raised there (R155). -/
def onRelay (k : Pkt) (s : State) : State :=
  if !isMaster s then s else
  let n := slotsNat k.body
  event (n % 2 ^ 16) (bitsOf n 160 16) (bitsOf n 176 16) (bitsOf n 192 64) s

/-- Another member tells that a composition failed (R466). -/
def onCompFailed (k : Pkt) (s : State) : State :=
  match compById (slotsNat k.body % 2 ^ 16) s with
  | some c => if c.state = .failed then s else s |> abandonIfNamed c.cmpId |> enterFailed c.slot |> releaseDelta
  | none => s

/-- POOL_EVENT, by the kind in OPARG [15:12] (assumption 12). -/
def onPoolEvent (k : Pkt) (s : State) : State :=
  match bitsOf k.hdr.oparg.toNat 12 4 with
  | 0 => onRelay k s
  | 1 => onStateCopy k s
  | 2 => onStateCopy k s
  | 3 => onReport k s
  | 4 => onCompFailed k s
  | _ => s

/-! ### The commands -/

/-- IMAGE_READ (R29). -/
def execImageRead (s : State) := ok (imageRead (fun s => s |> imageApplied |> startElection) s)
/-- PORT_UP (R394). -/
def execPortUp (p : Fin 24) (s : State) := ok (portUp p s)
/-- ELECT (R537). -/
def execElect (p : Fin 24) (h : Hdr) (s : State) := ok (onHello 1 h (onElect p h) s)
/-- ELECTION_CONCLUDED (R537). -/
def execElectionConcluded (entropyOk : Bool) (s : State) := ok (electionConcluded entropyOk s)
/-- PROBE (R539). -/
def execProbe (p : Fin 24) (h : Hdr) (s : State) := ok (onHello 2 h (onProbe p h) s)
/-- DISCOVERY_END (R539, R540). -/
def execDiscoveryEnd (routes : List RouteOp) (entropyOk : Bool) (s : State) := ok (discoveryEnd routes entropyOk s)
/-- FORMED (R540). -/
def execFormed (p : Fin 24) (h : Hdr) (entropyOk : Bool) (s : State) := ok (onHello 4 h (onFormed p h entropyOk) s)
/-- FORM_TIMEOUT (R541). -/
def execFormTimeout (s : State) := ok (formTimeout s)
/-- ELECT_RESEND (R541). -/
def execElectResend (s : State) := ok (electResend s)
/-- JOIN_REQ (R547). -/
def execJoinReq (_p : Fin 24) (h : Hdr) (routes : List RouteOp) (s : State) := ok (onHello 3 h (onJoinReq h routes) s)
/-- ROUTE_SET (R163). -/
def execRouteSet (k : Pkt) (s : State) := ok (onArrival 0x81 k (onRouteSet k) s)
/-- POOL_EVENT (R518). -/
def execPoolEvent (k : Pkt) (s : State) := ok (onArrival 0x88 k (onPoolEvent k) s)
/-- STANDBY_MASTER_TAKEOVER (R518). -/
def execStandbyMasterTakeover (s : State) := ok (standbyTakeover s)

end Sys2Proof.Machine
end

