-- ==== Sys2Proof/Machine/Migrate.lean ====
section
/-! DEFINITION. Moving pages (R70 to R75, R376, R320): batches, their copy, the rewriting of leaf entries. -/

namespace Sys2Proof.Machine

/-- A pool range meets a versioned region of this Slosin. -/
def versionedHere (slot pa len : Nat) (s : State) : Bool :=
  s.hv.regions.any (fun r => r.slot == slot && pa < r.base + r.length && r.base < pa + len)

/-- The node that homes a pool address. -/
def nodeOfPa (c : Comp) (pa : Nat) : Option Nat := (splitPa c pa).bind (fun x => c.members[x.1]?)

/-- A pool address lies in this member's near window. -/
def nearHere (c : Comp) (s : State) (pa : Nat) : Bool :=
  (splitPa c pa).any (fun x => c.members[x.1]? == some (myNode s) && x.2 < farWindow)

/-- The 4 KiB pages of a pool range. -/
def pagesOf (pa len : Nat) : List Nat := (List.range (len / 4096)).map (fun i => pa + 4096 * i)

/-- Physical pages of a pool range homed here. -/
def physPages (c : Comp) (pa len : Nat) (s : State) : List Nat :=
  (pagesOf pa len).filterMap (fun a => (physOf c a s).map (· / 4096))

/-! ### Batches -/

/-- End a migration: nothing is left to move, or it failed. -/
def moveEnd (id status : Nat) (s : State) : State :=
  modDesc id (fun d => if d.phase != .waiting then d else
    { d with phase := .finished, mig := none,
             status := if d.consumed then 0x10 else if status ≠ 0 then status else if d.dropped > 0 then 2 else 0 }) s

/-- Start the next batch: at most 16 pages. A migration invalidates its ASID first; a prefetch holds nothing (R75). -/
def startBatch (id : Nat) (s : State) : State :=
  match descOf id s with
  | none => s
  | some d =>
    match d.mig with
    | none => s
    | some m =>
      if m.todo.isEmpty then moveEnd id 0 s else
      let m := { m with todo := m.todo.drop 16, batch := m.todo.take 16, draining := true, pages := [], dirtied := [] }
      let s := modDesc id (fun d => { d with mig := some m }) s
      if m.prefetch then s else invalidate (dAsid d.raw) false none false s

/-- No cached copy of the batch's source lines is left here; what is left is recalled. -/
def batchClear (slot : Nat) (b : List MovePage) (s : State) : Bool × State :=
  if b.all (fun p => (dirLines slot p.src p.size s).isEmpty) then (true, s)
  else (false, each b (fun p => recallRange .drop slot p.src p.size) s)

/-- MIGRATION_BATCH_DRAINED: the invalidation and the recalls have ended, and the copy starts. -/
def batchDrained (id : Nat) (s : State) : State :=
  match descOf id s with
  | none => s
  | some d =>
    match d.mig, compAt d.slot s with
    | some m, some c =>
      if d.phase != .waiting || !m.draining then s else
      if !m.prefetch && s.xl.invs.any (fun i => i.asid == dAsid d.raw) then s else
      let (clear, s) := batchClear d.slot m.batch s
      if !clear then s else
      let pages := m.batch.flatMap (fun p => physPages c p.src p.size s)
      modDesc id (fun d => { d with mig := some { m with draining := false, pages } }) s
    | _, _ => s

/-! ### The copy -/

/-- Copy one physical page with its never-written state and its bittern marks (R72). -/
def copyPhys (sp dp : Nat) (s : State) : State :=
  if !isWritten sp s then markNever dp s else
  let s := markNever dp s
  let marks := (List.range 64).filter (fun i => isBittern (sp * 64 + i) s)
  let s := { s with mem := { s.mem with written := kin s.mem.written dp true } }
  let s := setBytes (dp * 4096) (bytesAt (sp * 4096) 4096 s) s
  each marks (fun i s => { s with mem := { s.mem with bittern := kin s.mem.bittern (dp * 64 + i) true } }) s

/-- A page that arrives from another member: its contents are free values. -/
def copyIn (dp : Nat) (s : State) : State :=
  let (w, s) := takeFree 1 s
  let s := markNever dp s
  if w = 0 then s else
  let s := { s with mem := { s.mem with written := kin s.mem.written dp true } }
  each (List.range 64) (fun i s =>
    let (v, s) := takeFree 512 s
    let (b, s) := takeFree 1 s
    let s := setCells (dp * 64 + i) v (BitVec.allOnes 64) s
    if b = 1 then { s with mem := { s.mem with bittern := kin s.mem.bittern (dp * 64 + i) true } } else s) s

/-- A page that leaves for another member: whole-line writes; a never-written page needs none. -/
def copyOut (id : Nat) (c : Comp) (sp dst n : Nat) (s : State) : State :=
  if !isWritten sp s then s else
  each (List.range 64) (fun i s =>
    let (k, s) := newAccess id c.slot (.peer (BitVec.ofNat 12 n)) s
    (sendReq 0x08 n c.cmpId (dst + 64 * i) 0 (lineSlots (cellLine (sp * 64 + i) s)) (isBittern (sp * 64 + i) s) (.access k) s).2) s

/-- Copy one 4 KiB page between pool addresses. -/
def copyPool (id : Nat) (c : Comp) (src dst : Nat) (s : State) : State :=
  match physOf c src s, physOf c dst s with
  | some p, some q => s |> sealTouched c.slot |> copyPhys (p / 4096) (q / 4096)
  | none, some q => s |> sealTouched c.slot |> copyIn (q / 4096)
  | some p, none => match nodeOfPa c dst with
    | some n => copyOut id c (p / 4096) dst n s
    | none => s
  | none, none => s

/-- Why a page cannot be moved now: the status of the failure (R74). -/
def moveFault (c : Comp) (pa : Nat) (s : State) : Option Nat :=
  match homeOf c pa s with
  | .here (.at_ p) => if tierUp p s then none else some 0x13
  | .here .unallotted => some 0x13
  | .member _ n => if fbit (FAB_ROUTE_UNREACHABLE n) s then some 0x13 else none
  | _ => some 0x12

/-! ### Leaf entries (R71 step 5, R222) -/

/-- The leaf entry of an address: where it lies, its level and its value; what lies on another member is a free value. -/
def leafSlot (c : Comp) (va : Nat) : Nat → Nat → State → (Nat × Nat × Nat) × State
  | n, table, s =>
    let pa := table + bitsOf va (12 + 9 * n) 9 * 8
    let (v, s) := match (readEnt c table (bitsOf va (12 + 9 * n) 9) [] s).1 with
      | .val v => (v, s)
      | _ =>
        let (v, s) := takeFree 64 s
        (v.toNat, s)
    match n with
    | 0 => ((pa, 0, v), s)
    | m + 1 => if bitAt v 1 then ((pa, n, v), s) else leafSlot c va m (bitsOf v 12 44 * 4096) s

/-- Write an 8-byte entry at its home. -/
def putEntry (pa v : Nat) : Eng Unit :=
  engStore (pa / 64) (BitVec.ofNat 512 (v % 2 ^ 64 * 2 ^ (8 * (pa % 64)))) (BitVec.ofNat 64 (255 * 2 ^ (pa % 64))) false

/-- An entry with another ADDR. -/
def withAddr (v pa : Nat) : Nat := bitsOf v 0 12 + pa / 4096 % 2 ^ 44 * 4096 + bitsOf v 56 8 * 2 ^ 56

/-- Find the leaf entry of an address of the running ASID. -/
def engLeaf (va : Nat) : Eng (Nat × Nat × Nat) := do
  let e ← get
  let asid := ((descOf e.id e.st).map (fun d => dAsid d.raw)).getD 0
  let (x, s) := leafSlot e.c va 3 (fget (CTU_ASID_ROOT asid) e.st * 4096) e.st
  modify (fun e => { e with st := s })
  return x

/-- Clear CONTIG in the other entries of a group that is split. -/
def clearGroup (va : Nat) : Nat → Eng Unit
  | 0 => pure ()
  | n + 1 => do
    let (pa, level, v) ← engLeaf (va / 65536 * 65536 + n * 4096)
    if level = 0 && bitAt v 1 && bitAt v 5 then putEntry pa (v - 32)
    clearGroup va n

/-- Rewrite the entries of `n` pages from the last down. -/
def rewriteGo (p : MovePage) : Nat → Eng Unit
  | 0 => pure ()
  | n + 1 => do
    let (pa, _, v) ← engLeaf (p.va + n * 4096)
    putEntry pa (withAddr v (p.dst + n * 4096))
    rewriteGo p n

/-- Rewrite the leaf entry or entries of a page to its destination. -/
def rewriteLeaf (p : MovePage) : Eng Unit := do
  if p.size = 4096 then clearGroup p.va 16
  rewriteGo p (if p.size = 65536 then 16 else 1)

/-- Move one page: copy, rewrite, and mark its source never-written. -/
def movePage (id : Nat) (p : MovePage) : Eng Unit := do
  let e ← get
  engMod (each (pagesOf 0 p.size) (fun o => copyPool id e.c (p.src + o) (p.dst + o)))
  rewriteLeaf p
  engMod (each (physPages e.c p.src p.size (← get).st) markNever)
  let regions := (splitPa e.c p.dst).toList.filter (fun x => e.c.members[x.1]? == some (myNode e.st))
  engMod (each regions (fun x s => { s with mem := { s.mem with advice := kset s.mem.advice (heatKey e.c.slot x.2) 0 0 } }))
  engBytes p.size

/-- Move the pages of a batch: a page written during a prefetch's copy is skipped (R75). -/
def moveBatch (id : Nat) (gth : Bool) (m : MigS) : List MovePage → Eng Unit
  | [] => pure ()
  | p :: t => do
    let e ← get
    if m.prefetch && (physPages e.c p.src p.size e.st).any (fun q => m.dirtied.contains q) then
      engDrop 1
      engMod (finc (if gth then ENG_GTH_DROP_CNT 3 else ENG_MOV_EVENT_CNT 3))
    else
      movePage id p
      engMod (finc (if gth then ENG_GTH_EVENT_CNT 4 else ENG_MOV_EVENT_CNT 2))
    moveBatch id gth m t

/-- The holds of a batch end: what queued behind it is translated again when it starts (R71). -/
def releaseHolds (d : Desc) (m : MigS) (s : State) : State :=
  let asid := dAsid d.raw
  let s := { s with xl := { s.xl with tlb := s.xl.tlb.filter (fun e =>
    e.asid != asid || !m.batch.any (fun b => e.va < b.va + b.size && b.va < e.va + e.size)) } }
  let mine := s.slc.descs.filter (fun x => x.slot == d.slot && x.id != d.id && x.phase == .queued
    && m.batch.any (fun b => touchesPool x.runs b.src b.size))
  each mine (fun x s =>
    let (n, s) := takeFree 32 s
    s |> modDesc x.id (fun x => { x with stale := true }) |> onlyIf (!m.prefetch) (addStall x.id 0 n.toNat)) s |> showCtu

/-- The uncorrectable lines that the copy of a batch reads here (R111, R449). -/
def meetBatch (c : Comp) (b : List MovePage) (ue : List Nat) (s : State) : State :=
  each (b.flatMap (fun p => physPages c p.src p.size s)) (fun page s => meetPage c.slot page ue s) s

/-- MIGRATION_COPY_DONE: the batch's pages switch, and the next batch starts. -/
def copyDone (id : Nat) (ue : List Nat) (s : State) : State :=
  match descOf id s with
  | none => s
  | some d =>
    match d.mig, compAt d.slot s with
    | some m, some c =>
      if d.phase != .waiting || m.draining || m.batch.isEmpty then s else
      match (m.batch.flatMap (fun p => [p.src, p.dst])).findSome? (fun a => moveFault c a s) with
      | some st => moveEnd id st s
      | none =>
        let (clear, s) := batchClear d.slot m.batch s
        if !clear then s else
        let s := meetBatch c m.batch ue s
        let (r, s) := engOn id (moveBatch id (dEng d.raw == 3) m m.batch) s
        match r with
        | some (.ok _) =>
          s |> releaseHolds d m |> modDesc id (fun d => { d with mig := some { m with batch := [], pages := [] } })
            |> onlyIf m.prefetch (invalidate (dAsid d.raw) false none false) |> startBatch id
        | some (.error st) => moveEnd id st s
        | none => s
    | _, _ => s

/-! ### MIGRATE and PREFETCH (R376) -/

/-- Whether a range of another member suits is not known here: a free bit. -/
def remoteOk (c : Comp) (pas : List Nat) : Eng Bool := do
  let e ← get
  if pas.all (fun a => nodeOfPa c a == some (myNode e.st)) then return true
  let b ← engFree 1
  return b == 1

/-- MIGRATE and PREFETCH: check the destination and start the first batch. -/
def migrate (prefetch : Bool) (r : BitVec 1024) : Eng Unit := do
  let e ← get
  let c := e.c
  let leafOf := fun va => (leafAt c (dAsid r) e.st va).map (fun t => (t.va, t.size))
  let ls := leavesFrom leafOf (mvSrc r + mvLen r) (mvLen r / 4096 + 1) (mvSrc r)
  let pages : List MovePage := ls.filterMap (fun l =>
    match runAt e.runs l.1 with
    | some (.pool a, _) => some ⟨l.1, l.2, a, mvAux r + (l.1 - mvSrc r)⟩
    | _ => none)
  let dest := mvAux r
  if pages.any (fun p => versionedHere c.slot p.src p.size e.st) || versionedHere c.slot dest (mvLen r) e.st
    || !rangeBacked c dest (mvLen r) e.st || (physPages c dest (mvLen r) e.st).any (fun q => isWritten q e.st)
    || (prefetch && !(pagesOf dest (mvLen r)).all (nearHere c e.st)) then throw 0x12
  if !(← remoteOk c (pages.map (·.src) ++ pages.map (·.dst))) then throw 0x12
  engMod (modDesc e.id (fun d => { d with mig := some { todo := pages, prefetch } }))
  engWait
  engMod (startBatch e.id)

/-! ### PREFETCH of the Gather engine (R320) -/

/-- What GATHER's PREFETCH has chosen. -/
structure PfS where
  seen : List Nat := []
  moves : List MovePage := []

/-- The lowest free destination page of a size. -/
def freeDest (base len size : Nat) (moves : List MovePage) : Option Nat :=
  let first := (base + size - 1) / size * size
  ((List.range (len / size + 1)).map (fun i => first + i * size)).find? (fun a =>
    a + size ≤ base + len && moves.all (fun m => a + size ≤ m.dst || m.dst + m.size ≤ a))

/-- Consider the leaf page of one address. -/
def pfPage (r : BitVec 1024) (va : Nat) (p : PfS) : Eng PfS := do
  let e ← get
  let c := e.c
  let (base, size) := ((leafAt c (dAsid r) e.st va).map (fun t => (t.va, t.size))).getD (va / 4096 * 4096, 4096)
  if p.seen.contains base then return p
  let p := { p with seen := base :: p.seen }
  let tg : Option Target := (runAt e.runs va).map (·.1)
  match tg with
  | some (.pool a) =>
    let src := a - (va - base)
    if nearHere c e.st src then return p
    if size > 65536 || versionedHere c.slot src size e.st then
      gaDrop 5 true
      return p
    if !(← remoteOk c [src]) then
      gaDrop 5 true
      return p
    match freeDest (gaOutVa r) (gaOffVa r) size p.moves with
    | none =>
      gaDrop 4 true
      return p
    | some dst => return { p with moves := p.moves ++ [⟨base, size, src, dst⟩] }
  | _ =>
    gaDrop 5 true
    return p

/-- Consider the pages of rows. -/
def pfRows (r : BitVec 1024) : List (Bool × Nat) → PfS → Eng PfS
  | [], p => pure p
  | x :: t, p => do
    let va := gaTable r x.1 + x.2 * gaStride r x.1
    let p ← pfPage r va p
    let p ← pfPage r (va + gaRowBytes r - 1) p
    pfRows r t p

/-- Consider the indices from `j` on. -/
def pfGo (r : BitVec 1024) : Nat → Nat → PfS → Eng PfS
  | 0, _, p => pure p
  | n + 1, j, p => do
    let (x, _, b) ← readIndex r j
    engConsume b
    match x with
    | .rows l => pfGo r n (j + 1) (← pfRows r l p)
    | x =>
      dropIndex r x
      pfGo r n (j + 1) p

/-- PREFETCH of the Gather engine. -/
def gatherPrefetch (r : BitVec 1024) : Eng Unit := do
  let p ← pfGo r (gaN r) 0 {}
  let e ← get
  if p.moves.isEmpty then
    if e.dropped > 0 then modify (fun e => { e with status := 2 })
  else
    engMod (modDesc e.id (fun d => { d with mig := some { todo := p.moves, prefetch := true } }))
    engWait
    engMod (startBatch e.id)

/-! ### The commands -/

/-- MIGRATE (R376). -/
def execMigrate (d : Nat) (inp : EngIn) (s : State) := ok (runEng 0 3 d inp (migrate false) s)
/-- MOVE_PREFETCH (R75, R376). -/
def execMovePrefetch (d : Nat) (inp : EngIn) (s : State) := ok (runEng 0 4 d inp (migrate true) s)
/-- MIGRATION_BATCH_DRAINED (R71). -/
def execMigrationBatchDrained (d : Nat) (s : State) := ok (batchDrained d s)
/-- MIGRATION_COPY_DONE (R71). -/
def execMigrationCopyDone (d : Nat) (ue : List Nat) (s : State) := ok (copyDone d ue s)
/-- GATHER_PREFETCH (R320). -/
def execGatherPrefetch (d : Nat) (inp : EngIn) (s : State) := ok (runEng 3 4 d inp gatherPrefetch s)

end Sys2Proof.Machine
end

