-- ==== Sys2Proof/Machine/Move.lean ====
section
/-! DEFINITION. The Move and Check engines (chapter 15): FILL, COPY, ADVISE, HEAT_SNAPSHOT, COMPARE, CHECKSUM,
CONTENT_HASH and SCRUB. -/

namespace Sys2Proof.Machine

/-! ### FILL and COPY (R374, R375) -/

/-- Bytes of a line from an address on, at most `n`. -/
def lineRest (va n : Nat) : Nat := min (64 - va % 64) n

/-- The pattern's bytes for the `n` addresses from `va` on. -/
def patternBytes (pattern va n : Nat) : List Byte :=
  (List.range n).map (fun i => BitVec.ofNat 8 (bitsOf pattern (8 * ((va + i) % 8)) 8))

/-- Count bytes written. -/
def movWrote (n : Nat) : Eng Unit := do
  engBytes n
  engMod (fadd (ENG_MOV_EVENT_CNT 1) n)

/-- Fill `n` bytes at `va`, line by line. -/
def fillGo (pattern : Nat) : Nat → Nat → Nat → Eng Unit
  | 0, _, _ => pure ()
  | f + 1, va, n => do
    if n = 0 then return ()
    let k := lineRest va n
    storeVa va (patternBytes pattern va k) false
    movWrote k
    fillGo pattern f (va + k) (n - k)

/-- FILL. -/
def fill (r : BitVec 1024) : Eng Unit := fillGo (mvAux r) (mvLen r / 64 + 2) (mvDst r) (mvLen r)

/-- Copy `n` bytes, one destination line at a time: it is marked when a source byte of it is (R111). -/
def copyGo : Nat → Nat → Nat → Nat → Eng Unit
  | 0, _, _, _ => pure ()
  | f + 1, src, dst, n => do
    if n = 0 then return ()
    let k := lineRest dst n
    let (bs, b) ← readVa src k
    storeVa dst bs b
    movWrote k
    copyGo f (src + k) (dst + k) (n - k)

/-- COPY. -/
def copy (r : BitVec 1024) : Eng Unit := copyGo (mvLen r / 64 + 2) (mvSrc r) (mvDst r) (mvLen r)

/-! ### ADVISE (R76, R77, R377) -/

/-- Mark one page homed here never-written: copies are recalled and what they return is discarded; it is a write of its
region (R99). -/
def discardPage (slot pa page : Nat) (s : State) : State :=
  let s := s |> settlePage page
  let s := each (dirLines slot pa 4096 s) (dropCopies slot) s
  s |> sealTouched slot |> keepOld slot pa page |> noteDirtied page |> markNever page

/-- Apply an advice code to the 4 KiB page at a pool address, at its home. -/
def advisePage (code pa : Nat) : Eng Unit := do
  let e ← get
  let c := e.c
  match splitPa c pa with
  | none => engUnbacked
  | some (i, l) =>
    if c.members[i]? == some (myNode e.st) then
      let phys := physOf c pa e.st
      match code with
      | 3 => match phys with
        | some p => if p < farBase then engMod (fun s => s |> wakeTile (tileOf p) |> refreshExit (tileOf p)) else pure ()
        | none => pure ()
      | 4 => match phys with
        | some p => engMod (discardPage c.slot pa (p / 4096))
        | none => pure ()
      | _ => engMod (fun s => { s with mem := { s.mem with advice := kset s.mem.advice (heatKey c.slot l) code 0 } })
    else match c.members[i]? with
      | some n => if fbit (FAB_ROUTE_UNREACHABLE n) e.st then throw 0x13 else pure ()
      | none => engUnbacked

/-- Apply it to each page of a list. -/
def advisePages (code : Nat) : List Nat → Eng Unit
  | [] => pure ()
  | p :: t => do
    advisePage code p
    advisePages code t

/-- Apply it to each leaf of a range: a host-tier or view leaf is skipped. -/
def adviseLeaves (code lo hi : Nat) : List (Nat × Nat) → Eng Unit
  | [] => pure ()
  | (b, size) :: t => do
    let e ← get
    let first := max b (lo / 4096 * 4096)
    let stop := min (b + size) hi
    match runAt e.runs (max b lo) with
    | some (.pool a, _) =>
      let base := a / 4096 * 4096
      advisePages code ((List.range ((stop - first + 4095) / 4096)).map (fun i => base + 4096 * i))
    | _ => engDrop 1
    adviseLeaves code lo hi t

/-- ADVISE. -/
def advise (r : BitVec 1024) : Eng Unit := do
  engBytesOpen
  let e ← get
  let leafOf := fun va => (leafAt e.c (dAsid r) e.st va).map (fun t => (t.va, t.size))
  let hi := mvSrc r + mvLen r
  adviseLeaves (mvArg r) (mvSrc r) hi (leavesFrom leafOf hi (mvLen r / 4096 + 2) (mvSrc r))
  if (← get).dropped > 0 then modify (fun e => { e with status := 2 })

/-! ### HEAT_SNAPSHOT (R79, R378) -/

/-- The heat record of the region at a local offset; an unbacked region's is zero. -/
def heatRecord (c : Comp) (l : Nat) (s : State) : Nat :=
  if placeLocal c l == .unbacked then 0 else
  let k := heatKey c.slot l
  let h := kgetD s.mem.heat k {}
  h.reads + h.writes * 2 ^ 16 + h.remote * 2 ^ 32 + b2n (l ≥ farWindow) * 2 ^ 48 + b2n h.sat * 2 ^ 49
    + b2n (kgetD s.mem.advice k 0 == 5) * 2 ^ 50 + h.age * 2 ^ 56

/-- Write `n` records from local offset `l` on. -/
def heatGo : Nat → Nat → Nat → Eng Unit
  | 0, _, _ => pure ()
  | n + 1, l, va => do
    let e ← get
    writeVa va (natLe 8 (heatRecord e.c l e.st)) false
    engMod (finc (ENG_MOV_EVENT_CNT 4))
    heatGo n (l + frameBytes) (va + 8)

/-- HEAT_SNAPSHOT. -/
def heatSnapshot (r : BitVec 1024) : Eng Unit := do
  engBytesOpen
  heatGo (heatCount r) (mvAux r) (mvDst r)

/-! ### The Check engine (R379 to R384) -/

/-- Read a range for a Check command: its bytes are counted, bittern is consumed. -/
def checkRead (va n : Nat) : Eng (List Byte) := do
  let (bs, b) ← readVa va n
  engBytes n
  engMod (fadd (ENG_CHK_EVENT_CNT 1) n)
  engConsume b
  return bs

/-- Write a Check command's result, marked when it consumed bittern. -/
def checkResult (r : BitVec 1024) (bs : List Byte) : Eng Unit := do
  writeVa (mvAux r) bs (← get).consumed

/-- The lowest offset at which two byte strings differ. -/
def firstDiff : List Byte → List Byte → Nat → Option Nat
  | a :: x, b :: y, i => if a = b then firstDiff x y (i + 1) else some i
  | _, _, _ => none

/-- COMPARE. -/
def compare (r : BitVec 1024) : Eng Unit := do
  let a ← checkRead (mvSrc r) (mvLen r)
  let b ← checkRead (mvDst r) (mvLen r)
  match firstDiff a b 0 with
  | none => checkResult r (natLe 8 (2 ^ 64 - 1))
  | some i =>
    engMod (finc (ENG_CHK_EVENT_CNT 4))
    checkResult r (natLe 8 i)

/-- CHECKSUM (R381). -/
def checksum (r : BitVec 1024) : Eng Unit := do
  let bs ← checkRead (mvSrc r) (mvLen r)
  checkResult r (natLe 8 (if mvArg r = 1 then crcFrom polyCrc64 64 (mvInit r) bs else crcFrom polyCrc32c 32 (mvInit r) bs))

/-- CONTENT_HASH (R382). -/
def contentHash (r : BitVec 1024) : Eng Unit := do
  let bs ← checkRead (mvSrc r) (mvLen r)
  checkResult r (if mvArg r = 1 then treeHash bs else sha384 bs)

/-! ### SCRUB (R383) -/

/-- What SCRUB has counted. -/
structure ScrubN where
  lines : Nat := 0
  fixed : Nat := 0
  bittern : Nat := 0
  /-- Never-written pages skipped, by pool page. -/
  skipped : List Nat := []

/-- A correctable error of a near line: corrected and written back. -/
def scrubFix (p : Nat) : Eng Unit := do
  let e ← get
  match e.inp.layers.find? (fun x => x.1 == p / 64) with
  | some (_, l) => engMod (fun s => s |> finc (RAS_ERR_CNT 0) |> layerError l (vaultOf p) false)
  | none => engMod (finc (RAS_ERR_CNT 0))
  engMod (finc (ENG_CHK_EVENT_CNT 2))

/-- An uncorrectable error: the line becomes bittern. -/
def scrubLose (p : Nat) : Eng Unit := do
  let e ← get
  match if p < farBase then e.inp.layers.find? (fun x => x.1 == p / 64) else none with
  | some (_, l) => engMod (fun s =>
      s |> finc (RAS_ERR_CNT 1) |> setBittern e.c.slot (p / 64) true |> logUe l p |> layerError l (vaultOf p) true)
  | none => engMod (meetEcc e.c.slot p .ue)

/-- Scrub the line at a pool address: `n` of its bytes are in the range. -/
def scrubLine (pa n : Nat) (g : ScrubN) : Eng ScrubN := do
  let e ← get
  let read : Eng Unit := do
    engBytes n
    engMod (fadd (ENG_CHK_EVENT_CNT 1) n)
  let page := pa / 4096
  let skip : ScrubN := if g.skipped.contains page then g else { g with skipped := page :: g.skipped }
  match homeOf e.c pa e.st with
  | .here (.at_ p) =>
    if !tierUp p e.st then throw 0x13
    engMod (settlePage (p / 4096))
    let s := (← get).st
    if !isWritten (p / 4096) s then return skip
    read
    let g := { g with lines := g.lines + 1 }
    if isBittern (p / 64) s then
      engMod (finc (ENG_CHK_EVENT_CNT 3))
      return { g with bittern := g.bittern + 1 }
    if e.inp.ue.contains (p / 64) then
      scrubLose p
      engMod (finc (ENG_CHK_EVENT_CNT 3))
      return { g with bittern := g.bittern + 1 }
    if p < farBase && e.inp.ce.contains (p / 64) then
      scrubFix p
      return { g with fixed := g.fixed + 1 }
    return g
  | .here .unallotted => throw 0x13
  | .member _ n =>
    if fbit (FAB_ROUTE_UNREACHABLE n) e.st then throw 0x13
    -- what the line's home on another member finds is free
    let nw ← engFree 1
    if g.skipped.contains page || nw = 1 then return skip
    read
    let b ← engFree 1
    let c ← engFree 1
    engMod (fadd (ENG_CHK_EVENT_CNT 3) b.toNat)
    if b = 0 then engMod (fadd (ENG_CHK_EVENT_CNT 2) c.toNat)
    return { g with lines := g.lines + 1, bittern := g.bittern + b.toNat, fixed := g.fixed + (if b = 0 then c.toNat else 0) }
  | _ => engUnbacked

/-- Scrub `n` bytes at `va`, line by line. -/
def scrubGo : Nat → Nat → Nat → ScrubN → Eng ScrubN
  | 0, _, _, g => pure g
  | f + 1, va, n, g => do
    if n = 0 then return g
    let k := lineRest va n
    let e ← get
    match runAt e.runs va with
    | some (.pool a, _) =>
      let g ← scrubLine (a / 64 * 64) k g
      scrubGo f (va + k) (n - k) g
    | _ => throw 0x12

/-- SCRUB. -/
def scrub (r : BitVec 1024) : Eng Unit := do
  let g ← scrubGo (mvLen r / 64 + 2) (mvSrc r) (mvLen r) {}
  checkResult r ([g.lines, g.fixed, g.bittern, g.skipped.length].flatMap (natLe 8))

/-! ### The commands -/

/-- FILL (R374). -/
def execFill (d : Nat) (inp : EngIn) (s : State) := ok (runEng 0 1 d inp fill s)
/-- COPY (R374). -/
def execCopy (d : Nat) (inp : EngIn) (s : State) := ok (runEng 0 2 d inp copy s)
/-- ADVISE (R377). -/
def execAdvise (d : Nat) (inp : EngIn) (s : State) := ok (runEng 0 5 d inp advise s)
/-- HEAT_SNAPSHOT (R378). -/
def execHeatSnapshot (d : Nat) (inp : EngIn) (s : State) := ok (runEng 0 6 d inp heatSnapshot s)
/-- COMPARE (R380). -/
def execCompare (d : Nat) (inp : EngIn) (s : State) := ok (runEng 1 1 d inp compare s)
/-- CHECKSUM (R381). -/
def execChecksum (d : Nat) (inp : EngIn) (s : State) := ok (runEng 1 2 d inp checksum s)
/-- CONTENT_HASH (R382). -/
def execContentHash (d : Nat) (inp : EngIn) (s : State) := ok (runEng 1 3 d inp contentHash s)
/-- SCRUB (R383). -/
def execScrub (d : Nat) (inp : EngIn) (s : State) := ok (runEng 1 4 d inp scrub s)

end Sys2Proof.Machine
end

