-- ==== Sys2Proof/Machine/Dispatch.lean ====
section
/-! DEFINITION. What each command does: one arm per constructor. -/

namespace Sys2Proof.Machine

def exec (i : Instr) (s : State) : Host.Outcome State Fault Refusal :=
  match i with
  | .registerWrite src a => Sys2Proof.Machine.execRegisterWrite src a s
  | .badSizeAccess write addr => Sys2Proof.Machine.execBadSizeAccess write addr s
  | .brlWrite src a => Sys2Proof.Machine.execBrlWrite src a s
  | .imageRead => Sys2Proof.Machine.execImageRead s
  | .deltaData m offset bytes => Sys2Proof.Machine.execDeltaData m offset bytes s
  | .deltaEnd m len entropyOk => Sys2Proof.Machine.execDeltaEnd m len entropyOk s
  | .deltaDrainDone => Sys2Proof.Machine.execDeltaDrainDone s
  | .deltaDrainTimeout => Sys2Proof.Machine.execDeltaDrainTimeout s
  | .deltaMarkingDone => Sys2Proof.Machine.execDeltaMarkingDone s
  | .expanderEnumeration found => Sys2Proof.Machine.execExpanderEnumeration found s
  | .heatEpochEnd slot => Sys2Proof.Machine.execHeatEpochEnd slot s
  | .heatClear src slot => Sys2Proof.Machine.execHeatClear src slot s
  | .nwFillDone page => Sys2Proof.Machine.execNwFillDone page s
  | .tierAccessDone id => Sys2Proof.Machine.execTierAccessDone id s
  | .tierLate id ns => Sys2Proof.Machine.execTierLate id ns s
  | .accessTimeout id => Sys2Proof.Machine.execAccessTimeout id s
  | .farAccessFailed port => Sys2Proof.Machine.execFarAccessFailed port s
  | .expanderReturn port capacity => Sys2Proof.Machine.execExpanderReturn port capacity s
  | .migrationBatchDrained d => Sys2Proof.Machine.execMigrationBatchDrained d s
  | .migrationCopyDone d ue => Sys2Proof.Machine.execMigrationCopyDone d ue s
  | .harvestDeclare d => Sys2Proof.Machine.execHarvestDeclare d s
  | .harvestPublish d => Sys2Proof.Machine.execHarvestPublish d s
  | .harvestCut slot base => Sys2Proof.Machine.execHarvestCut slot base s
  | .harvestOpen d => Sys2Proof.Machine.execHarvestOpen d s
  | .harvestClose d => Sys2Proof.Machine.execHarvestClose d s
  | .harvestCloseDrained slot hvid => Sys2Proof.Machine.execHarvestCloseDrained slot hvid s
  | .harvestRetire d => Sys2Proof.Machine.execHarvestRetire d s
  | .harvestUndeclare d => Sys2Proof.Machine.execHarvestUndeclare d s
  | .versionCopyDone page ue => Sys2Proof.Machine.execVersionCopyDone page ue s
  | .exhaustWriteResume page => Sys2Proof.Machine.execExhaustWriteResume page s
  | .beat src slot agent => Sys2Proof.Machine.execBeat src slot agent s
  | .heartbeatTimeout slot agent => Sys2Proof.Machine.execHeartbeatTimeout slot agent s
  | .resume src slot job => Sys2Proof.Machine.execResume src slot job s
  | .cacheLoad agent slot pa => Sys2Proof.Machine.execCacheLoad agent slot pa s
  | .cacheStore agent slot pa data mask => Sys2Proof.Machine.execCacheStore agent slot pa data mask s
  | .cacheEvict agent slot pa => Sys2Proof.Machine.execCacheEvict agent slot pa s
  | .rdS m => Sys2Proof.Machine.execRdS m s
  | .rdX m => Sys2Proof.Machine.execRdX m s
  | .upg m => Sys2Proof.Machine.execUpg m s
  | .wb m => Sys2Proof.Machine.execWb m s
  | .evE m => Sys2Proof.Machine.execEvE m s
  | .evF m => Sys2Proof.Machine.execEvF m s
  | .rdCur m => Sys2Proof.Machine.execRdCur m s
  | .wrFull m => Sys2Proof.Machine.execWrFull m s
  | .wrPtl m => Sys2Proof.Machine.execWrPtl m s
  | .atom m => Sys2Proof.Machine.execAtom m s
  | .snpS m => Sys2Proof.Machine.execSnpS m s
  | .snpX m => Sys2Proof.Machine.execSnpX m s
  | .snpInv m => Sys2Proof.Machine.execSnpInv m s
  | .snpCur m => Sys2Proof.Machine.execSnpCur m s
  | .dataF m => Sys2Proof.Machine.execDataF m s
  | .dataE m => Sys2Proof.Machine.execDataE m s
  | .dataM m => Sys2Proof.Machine.execDataM m s
  | .cmp m => Sys2Proof.Machine.execCmp m s
  | .wbAck m => Sys2Proof.Machine.execWbAck m s
  | .invAck m => Sys2Proof.Machine.execInvAck m s
  | .rspFwd m => Sys2Proof.Machine.execRspFwd m s
  | .rspFwdWb m => Sys2Proof.Machine.execRspFwdWb m s
  | .rspData m => Sys2Proof.Machine.execRspData m s
  | .fin m => Sys2Proof.Machine.execFin m s
  | .snoopTimeout slot pa => Sys2Proof.Machine.execSnoopTimeout slot pa s
  | .tileSnoopTimeout slot pa t => Sys2Proof.Machine.execTileSnoopTimeout slot pa t s
  | .memRdData r => Sys2Proof.Machine.execMemRdData r s
  | .memRd r metaState mv => Sys2Proof.Machine.execMemRd r metaState mv s
  | .memInv r nt mv => Sys2Proof.Machine.execMemInv r nt mv s
  | .memSpecRd r => Sys2Proof.Machine.execMemSpecRd r s
  | .memWr r full mv => Sys2Proof.Machine.execMemWr r full mv s
  | .biRspI r block => Sys2Proof.Machine.execBiRspI r block s
  | .biRspS r block => Sys2Proof.Machine.execBiRspS r block s
  | .biRspE r block => Sys2Proof.Machine.execBiRspE r block s
  | .biConflict r => Sys2Proof.Machine.execBiConflict r s
  | .configRequest port => Sys2Proof.Machine.execConfigRequest port s
  | .agentDown h => Sys2Proof.Machine.execAgentDown h s
  | .cacheInval d => Sys2Proof.Machine.execCacheInval d s
  | .hostInval d => Sys2Proof.Machine.execHostInval d s
  | .dataFlit port raw fecOk => Sys2Proof.Machine.execDataFlit port raw fecOk s
  | .idleFlit port raw fecOk => Sys2Proof.Machine.execIdleFlit port raw fecOk s
  | .nakFlit port raw fecOk => Sys2Proof.Machine.execNakFlit port raw fecOk s
  | .auditFlit port raw fecOk sums => Sys2Proof.Machine.execAuditFlit port raw fecOk sums s
  | .auditFlitTimer port => Sys2Proof.Machine.execAuditFlitTimer port s
  | .linkSilence port => Sys2Proof.Machine.execLinkSilence port s
  | .reconcile port h => Sys2Proof.Machine.execReconcile port h s
  | .reconcileTimeout port => Sys2Proof.Machine.execReconcileTimeout port s
  | .bulkRd h => Sys2Proof.Machine.execBulkRd h s
  | .bulkWr p => Sys2Proof.Machine.execBulkWr p s
  | .bulkData p => Sys2Proof.Machine.execBulkData p s
  | .wrCmp h => Sys2Proof.Machine.execWrCmp h s
  | .atomData p => Sys2Proof.Machine.execAtomData p s
  | .curData p => Sys2Proof.Machine.execCurData p s
  | .nak h => Sys2Proof.Machine.execNak h s
  | .engFwd p => Sys2Proof.Machine.execEngFwd p s
  | .engCmp p => Sys2Proof.Machine.execEngCmp p s
  | .fence h => Sys2Proof.Machine.execFence h s
  | .fenceAck h => Sys2Proof.Machine.execFenceAck h s
  | .fabRouteWrite src d a => Sys2Proof.Machine.execFabRouteWrite src d a s
  | .routeSet p => Sys2Proof.Machine.execRouteSet p s
  | .incarnation h => Sys2Proof.Machine.execIncarnation h s
  | .jobStop h => Sys2Proof.Machine.execJobStop h s
  | .heartbeat h => Sys2Proof.Machine.execHeartbeat h s
  | .heartbeatSend => Sys2Proof.Machine.execHeartbeatSend s
  | .heartbeatMiss node linksDown => Sys2Proof.Machine.execHeartbeatMiss node linksDown s
  | .nodeDown node via => Sys2Proof.Machine.execNodeDown node via s
  | .poolEvent p => Sys2Proof.Machine.execPoolEvent p s
  | .hotlineWindowEnd => Sys2Proof.Machine.execHotlineWindowEnd s
  | .managementResend => Sys2Proof.Machine.execManagementResend s
  | .sluiceEnable src k value => Sys2Proof.Machine.execSluiceEnable src k value s
  | .sluiceDisable src k value => Sys2Proof.Machine.execSluiceDisable src k value s
  | .sqDoorbell src k value => Sys2Proof.Machine.execSqDoorbell src k value s
  | .cqDoorbell src k value => Sys2Proof.Machine.execCqDoorbell src k value s
  | .slcIrqWrite src k value => Sys2Proof.Machine.execSlcIrqWrite src k value s
  | .glbFeatAcceptWrite src k a => Sys2Proof.Machine.execGlbFeatAcceptWrite src k a s
  | .descriptorFetch => Sys2Proof.Machine.execDescriptorFetch s
  | .sluiceAging k => Sys2Proof.Machine.execSluiceAging k s
  | .fetchReturn k slots failAt => Sys2Proof.Machine.execFetchReturn k slots failAt s
  | .descriptorStart d => Sys2Proof.Machine.execDescriptorStart d s
  | .descriptorComplete d => Sys2Proof.Machine.execDescriptorComplete d s
  | .irqTimer k => Sys2Proof.Machine.execIrqTimer k s
  | .asidCreate src slot a => Sys2Proof.Machine.execAsidCreate src slot a s
  | .asidDestroy src slot a => Sys2Proof.Machine.execAsidDestroy src slot a s
  | .invalDrain src slot a => Sys2Proof.Machine.execInvalDrain src slot a s
  | .invalAbort src slot a => Sys2Proof.Machine.execInvalAbort src slot a s
  | .reroot src slot a => Sys2Proof.Machine.execReroot src slot a s
  | .invalComplete asid => Sys2Proof.Machine.execInvalComplete asid s
  | .walkDone asid va ents => Sys2Proof.Machine.execWalkDone asid va ents s
  | .xstoreRoom d ns => Sys2Proof.Machine.execXstoreRoom d ns s
  | .accumulate d inp => Sys2Proof.Machine.execAccumulate d inp s
  | .reduceScatter d inp => Sys2Proof.Machine.execReduceScatter d inp s
  | .allreduce d inp => Sys2Proof.Machine.execAllreduce d inp s
  | .mergeApply d inp => Sys2Proof.Machine.execMergeApply d inp s
  | .run d inp => Sys2Proof.Machine.execRun d inp s
  | .collJoin p => Sys2Proof.Machine.execCollJoin p s
  | .collArm p => Sys2Proof.Machine.execCollArm p s
  | .partialAcc p => Sys2Proof.Machine.execPartialAcc p s
  | .rearm p => Sys2Proof.Machine.execRearm p s
  | .collDone p => Sys2Proof.Machine.execCollDone p s
  | .collAbort p => Sys2Proof.Machine.execCollAbort p s
  | .collectiveTimeout d => Sys2Proof.Machine.execCollectiveTimeout d s
  | .gather d inp => Sys2Proof.Machine.execGather d inp s
  | .pool d inp => Sys2Proof.Machine.execPool d inp s
  | .scatterMerge d inp => Sys2Proof.Machine.execScatterMerge d inp s
  | .gatherPrefetch d inp => Sys2Proof.Machine.execGatherPrefetch d inp s
  | .pieceStart d pan lines accs => Sys2Proof.Machine.execPieceStart d pan lines accs s
  | .threadReady piece => Sys2Proof.Machine.execThreadReady piece s
  | .blockCommit piece last => Sys2Proof.Machine.execBlockCommit piece last s
  | .transientError d unit cls pan temp => Sys2Proof.Machine.execTransientError d unit cls pan temp s
  | .replay d unit => Sys2Proof.Machine.execReplay d unit s
  | .spareSwitched pan good => Sys2Proof.Machine.execSpareSwitched pan good s
  | .panStallTimeout pan => Sys2Proof.Machine.execPanStallTimeout pan s
  | .strikeExpiry pan => Sys2Proof.Machine.execStrikeExpiry pan s
  | .selftestStart t => Sys2Proof.Machine.execSelftestStart t s
  | .selftestEnd t failing => Sys2Proof.Machine.execSelftestEnd t failing s
  | .search d inp => Sys2Proof.Machine.execSearch d inp s
  | .deadlineExpiry d => Sys2Proof.Machine.execDeadlineExpiry d s
  | .rakeAppend d inp => Sys2Proof.Machine.execRakeAppend d inp s
  | .rakeDelete d inp => Sys2Proof.Machine.execRakeDelete d inp s
  | .attend d inp => Sys2Proof.Machine.execAttend d inp s
  | .fill d inp => Sys2Proof.Machine.execFill d inp s
  | .copy d inp => Sys2Proof.Machine.execCopy d inp s
  | .migrate d inp => Sys2Proof.Machine.execMigrate d inp s
  | .movePrefetch d inp => Sys2Proof.Machine.execMovePrefetch d inp s
  | .advise d inp => Sys2Proof.Machine.execAdvise d inp s
  | .heatSnapshot d inp => Sys2Proof.Machine.execHeatSnapshot d inp s
  | .compare d inp => Sys2Proof.Machine.execCompare d inp s
  | .checksum d inp => Sys2Proof.Machine.execChecksum d inp s
  | .contentHash d inp => Sys2Proof.Machine.execContentHash d inp s
  | .scrub d inp => Sys2Proof.Machine.execScrub d inp s
  | .portTraining port t => Sys2Proof.Machine.execPortTraining port t s
  | .trainingRetry port t => Sys2Proof.Machine.execTrainingRetry port t s
  | .peerAuthRetry port t => Sys2Proof.Machine.execPeerAuthRetry port t s
  | .laneLoss port off lane lock => Sys2Proof.Machine.execLaneLoss port off lane lock s
  | .laneRebuilt port => Sys2Proof.Machine.execLaneRebuilt port s
  | .x4RetrainDone port => Sys2Proof.Machine.execX4RetrainDone port s
  | .pcieRecoveryDone port => Sys2Proof.Machine.execPcieRecoveryDone port s
  | .eyeMeasurement port eyes => Sys2Proof.Machine.execEyeMeasurement port eyes s
  | .retrain src port value => Sys2Proof.Machine.execRetrain src port value s
  | .marginNow src port value eyes => Sys2Proof.Machine.execMarginNow src port value eyes s
  | .perstAssert port => Sys2Proof.Machine.execPerstAssert port s
  | .perstRelease port => Sys2Proof.Machine.execPerstRelease port s
  | .rateHoldRelease port => Sys2Proof.Machine.execRateHoldRelease port s
  | .agentEntryWrite src port k a => Sys2Proof.Machine.execAgentEntryWrite src port k a s
  | .hdmCommit port k base size ways => Sys2Proof.Machine.execHdmCommit port k base size ways s
  | .portUp port => Sys2Proof.Machine.execPortUp port s
  | .conventionalReset port => Sys2Proof.Machine.execConventionalReset port s
  | .clockStartTimeout => Sys2Proof.Machine.execClockStartTimeout s
  | .lfrefWindow ppm => Sys2Proof.Machine.execLfrefWindow ppm s
  | .lfrefEdgeLoss => Sys2Proof.Machine.execLfrefEdgeLoss s
  | .iroWindow ppm => Sys2Proof.Machine.execIroWindow ppm s
  | .xrefVoteWindow v => Sys2Proof.Machine.execXrefVoteWindow v s
  | .xrefEdgeLoss b => Sys2Proof.Machine.execXrefEdgeLoss b s
  | .holdRetry v iro => Sys2Proof.Machine.execHoldRetry v iro s
  | .returnMain src value => Sys2Proof.Machine.execReturnMain src value s
  | .iroTrimEnd => Sys2Proof.Machine.execIroTrimEnd s
  | .mainPllLocked => Sys2Proof.Machine.execMainPllLocked s
  | .tileGate t => Sys2Proof.Machine.execTileGate t s
  | .tileGated t => Sys2Proof.Machine.execTileGated t s
  | .tileWake t => Sys2Proof.Machine.execTileWake t s
  | .tileWakeDone t => Sys2Proof.Machine.execTileWakeDone t s
  | .pwrWakeWrite src value => Sys2Proof.Machine.execPwrWakeWrite src value s
  | .vaultSelfRefresh t => Sys2Proof.Machine.execVaultSelfRefresh t s
  | .selfRefreshExit t => Sys2Proof.Machine.execSelfRefreshExit t s
  | .governorSample mw => Sys2Proof.Machine.execGovernorSample mw s
  | .governorRaise => Sys2Proof.Machine.execGovernorRaise s
  | .powerCalibration mw read => Sys2Proof.Machine.execPowerCalibration mw read s
  | .thermalLoop logic dram => Sys2Proof.Machine.execThermalLoop logic dram s
  | .burstCharge => Sys2Proof.Machine.execBurstCharge s
  | .renew src value => Sys2Proof.Machine.execRenew src value s
  | .pwrgdAonRise strapId mcap boot i3c => Sys2Proof.Machine.execPwrgdAonRise strapId mcap boot i3c s
  | .pwrgdAonFall => Sys2Proof.Machine.execPwrgdAonFall s
  | .coldReset => Sys2Proof.Machine.execColdReset s
  | .warmReset m => Sys2Proof.Machine.execWarmReset m s
  | .pwrgdMainRise => Sys2Proof.Machine.execPwrgdMainRise s
  | .railPowerGood rail => Sys2Proof.Machine.execRailPowerGood rail s
  | .railTimeout rail => Sys2Proof.Machine.execRailTimeout rail s
  | .sequenceRetry => Sys2Proof.Machine.execSequenceRetry s
  | .mainPowerLoss retained => Sys2Proof.Machine.execMainPowerLoss retained s
  | .thermalTrip logic dram => Sys2Proof.Machine.execThermalTrip logic dram s
  | .pmbAlert rail status read => Sys2Proof.Machine.execPmbAlert rail status read s
  | .patrolScrubPass found newHour newSecond => Sys2Proof.Machine.execPatrolScrubPass found newHour newSecond s
  | .layerSpareNow src value => Sys2Proof.Machine.execLayerSpareNow src value s
  | .layerCopyDone ue => Sys2Proof.Machine.execLayerCopyDone ue s
  | .configGoldenCheck fixed goldenBad => Sys2Proof.Machine.execConfigGoldenCheck fixed goldenBad s
  | .conservationAudit fails => Sys2Proof.Machine.execConservationAudit fails s
  | .failCmd src value => Sys2Proof.Machine.execFailCmd src value s
  | .panClear src value => Sys2Proof.Machine.execPanClear src value s
  | .aorcFail => Sys2Proof.Machine.execAorcFail s
  | .slotWrite c slot ecdsa mldsa => Sys2Proof.Machine.execSlotWrite c slot ecdsa mldsa s
  | .slotRevoke c slot => Sys2Proof.Machine.execSlotRevoke c slot s
  | .setRequirePq c => Sys2Proof.Machine.execSetRequirePq c s
  | .debugUnlock c => Sys2Proof.Machine.execDebugUnlock c s
  | .getMeasurements r index => Sys2Proof.Machine.execGetMeasurements r index s
  | .keyExchange r => Sys2Proof.Machine.execKeyExchange r s
  | .meterTick => Sys2Proof.Machine.execMeterTick s
  | .meterTokens slot us lines => Sys2Proof.Machine.execMeterTokens slot us lines s
  | .checkpoint => Sys2Proof.Machine.execCheckpoint s
  | .berylPowerUp fw => Sys2Proof.Machine.execBerylPowerUp fw s
  | .berylWatchdog => Sys2Proof.Machine.execBerylWatchdog s
  | .berylRestartDone => Sys2Proof.Machine.execBerylRestartDone s
  | .setCivilTime year month day hour minute second ms => Sys2Proof.Machine.execSetCivilTime year month day hour minute second ms s
  | .periodicReport slot => Sys2Proof.Machine.execPeriodicReport slot s
  | .onDemand r slot => Sys2Proof.Machine.execOnDemand r slot s
  | .reportPushRetry => Sys2Proof.Machine.execReportPushRetry s
  | .reportRead m seq count => Sys2Proof.Machine.execReportRead m seq count s
  | .reportAck m seq => Sys2Proof.Machine.execReportAck m seq s
  | .journalExtract m first count => Sys2Proof.Machine.execJournalExtract m first count s
  | .chargeHeartbeat east epoch => Sys2Proof.Machine.execChargeHeartbeat east epoch s
  | .chargeWatchdog => Sys2Proof.Machine.execChargeWatchdog s
  | .takeover => Sys2Proof.Machine.execTakeover s
  | .stateCopy crcOk => Sys2Proof.Machine.execStateCopy crcOk s
  | .standbyMasterTakeover => Sys2Proof.Machine.execStandbyMasterTakeover s
  | .regRead m addr count => Sys2Proof.Machine.execRegRead m addr count s
  | .regWrite m addr value => Sys2Proof.Machine.execRegWrite m addr value s
  | .eventSubscribe m beryl eid slot => Sys2Proof.Machine.execEventSubscribe m beryl eid slot s
  | .eventRead m seq count => Sys2Proof.Machine.execEventRead m seq count s
  | .eventAck m seq => Sys2Proof.Machine.execEventAck m seq s
  | .lrRead m off len => Sys2Proof.Machine.execLrRead m off len s
  | .marginSweep m mask => Sys2Proof.Machine.execMarginSweep m mask s
  | .fwRestart m => Sys2Proof.Machine.execFwRestart m s
  | .restartWrite src value => Sys2Proof.Machine.execRestartWrite src value s
  | .failover m => Sys2Proof.Machine.execFailover m s
  | .mgtFwFailover src value => Sys2Proof.Machine.execMgtFwFailover src value s
  | .seqRetry m => Sys2Proof.Machine.execSeqRetry m s
  | .retainSeal m cmpId => Sys2Proof.Machine.execRetainSeal m cmpId s
  | .retainAssert m cmpId inc digest => Sys2Proof.Machine.execRetainAssert m cmpId inc digest s
  | .sealHashDone cmpId => Sys2Proof.Machine.execSealHashDone cmpId s
  | .mctpControl beryl kind data => Sys2Proof.Machine.execMctpControl beryl kind data s
  | .pldmMonitoring readings => Sys2Proof.Machine.execPldmMonitoring readings s
  | .pldmFirmwareUpdate component bytes => Sys2Proof.Machine.execPldmFirmwareUpdate component bytes s
  | .stickySample => Sys2Proof.Machine.execStickySample s
  | .eventPushRetry => Sys2Proof.Machine.execEventPushRetry s
  | .summaryWrite secs logic dram => Sys2Proof.Machine.execSummaryWrite secs logic dram s
  | .mirrorSync done => Sys2Proof.Machine.execMirrorSync done s
  | .marginPeriod => Sys2Proof.Machine.execMarginPeriod s
  | .marginSlot results => Sys2Proof.Machine.execMarginSlot results s
  | .onyxFirmwareStart wOk eOk primaryOk mirrorOk => Sys2Proof.Machine.execOnyxFirmwareStart wOk eOk primaryOk mirrorOk s
  | .powerOnSelfTest failing otherFail => Sys2Proof.Machine.execPowerOnSelfTest failing otherFail s
  | .elect port h => Sys2Proof.Machine.execElect port h s
  | .electionConcluded entropyOk => Sys2Proof.Machine.execElectionConcluded entropyOk s
  | .probe port h => Sys2Proof.Machine.execProbe port h s
  | .discoveryEnd routes entropyOk => Sys2Proof.Machine.execDiscoveryEnd routes entropyOk s
  | .formed port h entropyOk => Sys2Proof.Machine.execFormed port h entropyOk s
  | .formTimeout => Sys2Proof.Machine.execFormTimeout s
  | .electResend => Sys2Proof.Machine.execElectResend s
  | .joinReq port h routes => Sys2Proof.Machine.execJoinReq port h routes s
  | .retainHashDone slot entropyOk => Sys2Proof.Machine.execRetainHashDone slot entropyOk s
  | .expanderRetainDeadline port => Sys2Proof.Machine.execExpanderRetainDeadline port s

end Sys2Proof.Machine
end

