-- ==== Sys2Proof/Safety.lean ====
section
/-! DEFINITION. What the claims call well formed and safe: the canonical forms of the register file and of memory, and a step
that answers a next state. -/

namespace Sys2Proof.Machine

/-- Memory in its canonical form: addresses strictly rising, no byte that an unlisted address reads as, and the same form for
the pages that were written and for the bittern marks. Equal memories are then equal data. -/
abbrev Memory.wf (m : MemS) : Prop :=
  ksorted m.bytes ∧ (∀ e ∈ m.bytes, e.2 ≠ 0) ∧ ksorted m.written ∧ ksorted m.bittern

/-- The register file in its canonical form: keys strictly rising. -/
abbrev RegFile.wf (r : KMap Nat) : Prop := ksorted r

/-- The invariant that every step keeps. -/
def State.wf (s : State) : Prop := RegFile.wf s.regs ∧ Memory.wf s.mem

/-- A step of the block does not stop. -/
def State.runs (s : State) : Prop := ∃ t, step s = .next t

/-- A command completes with a next state of which `P` holds. -/
def Completes (c : Instr) (s : State) (P : State → Prop) : Prop := ∃ t, exec c s = .next t ∧ P t

/-! ### What a command leaves as it was -/

/-- The parts of the state. -/
inductive Part where
  | regs | mem | hv | coh | fab | slc | xl | mgt | prt | img | engs | clk | pwr | pan | sec | brl | lr | comps | free | out | pending
  deriving DecidableEq, Repr

/-- The state with one part cleared. -/
def State.blank (s : State) : Part → State
  | .regs => { s with regs := [] }
  | .mem => { s with mem := {} }
  | .hv => { s with hv := {} }
  | .coh => { s with coh := {} }
  | .fab => { s with fab := {} }
  | .slc => { s with slc := {} }
  | .xl => { s with xl := {} }
  | .mgt => { s with mgt := {} }
  | .prt => { s with prt := {} }
  | .img => { s with img := {} }
  | .engs => { s with engs := {} }
  | .clk => { s with clk := {} }
  | .pwr => { s with pwr := {} }
  | .pan => { s with pan := {} }
  | .sec => { s with sec := {} }
  | .brl => { s with brl := {} }
  | .lr => { s with lr := {} }
  | .comps => { s with comps := [] }
  | .free => { s with free := 0 }
  | .out => { s with out := [] }
  | .pending => { s with pending := [] }

/-- Nothing but the listed parts differs. -/
def SameBut (l : List Part) (s t : State) : Prop := l.foldl State.blank t = l.foldl State.blank s

/-- No register field but the listed ones differs. -/
def RegsBut (l : List Fld) (s t : State) : Prop := ∀ f : Fld, (∀ g ∈ l, f.key ≠ g.key) → fget f t = fget f s

/-- Every byte of the near and the far store reads as before. -/
def BytesKept (s t : State) : Prop := ∀ a, byteAt a t = byteAt a s

/-- A counter of the register space rose by `n`, or stands at all ones (R13). -/
def Counted (f : Fld) (n : Nat) (s t : State) : Prop := fget f t = min (fget f s + n) (2 ^ f.width - 1)

/-- A register access comes from a host whose link is up and whose agent entry binds it to the composition `c` in `slot`
(R393, R550). -/
def HostOf (src : Src) (slot : Nat) (c : Comp) (s : State) : Prop :=
  ∃ p r k, src = .host p r ∧ fget (PRT_STATUS_ROLE p) s = 1 ∧ fget (PRT_STATUS_LINK_UP p) s = 1
    ∧ doeEntry p r.toNat s = some k ∧ fget (PRT_AGENT_SLOT p k) s = slot ∧ compAt slot s = some c

/-- A management request comes in an SPDM session while Onyx firmware answers (R517, R521). -/
abbrev MgtUp (m : MgtReq) (s : State) : Prop := m.secured = true ∧ s.mgt.fwUp = true

/-- A line homed here in the near store at physical address `p`, of a present composition under coherence by hardware: its
page has been written, is not held, and lies in no versioned region. -/
abbrev LineAt (slot line : Nat) (c : Comp) (p : Nat) (s : State) : Prop :=
  compAt slot s = some c ∧ c.software = false ∧ homeOf c (line * 64) s = .here (.at_ p) ∧ p < farBase
    ∧ isWritten (p / 4096) s = true ∧ isBusy (p / 4096) s = false ∧ regionAt slot (line * 64) s = none

/-- The bytes of the line at physical line `pl` are those of `d`, every other byte is as before. -/
def LineStored (pl : Nat) (d : Line) (s t : State) : Prop :=
  ∀ a, byteAt a t = if a / 64 = pl then BitVec.ofNat 8 (d.toNat >>> (8 * (a % 64))) else byteAt a s

/-- A packet header arrives for this Slosin and passes every check (R154, R174); it is not one that already waits. -/
abbrev Delivered (opc : Nat) (h : Hdr) (s : State) : Prop :=
  h.opc.toNat = opc ∧ h.dst.toNat = myNode s ∧ malformed h = false ∧ h.dstInc.toNat = fget FAB_NODE_INCARNATION s
    ∧ h.srcInc.toNat = fget (peerIncFld h.src.toNat) s ∧ ∀ x ∈ s.fab.inbox, x.hdr ≠ h

/-- Nothing keeps a packet of one flit from leaving on port `p` at once: its route is there and not held, the link is up with
nothing queued, and the credits and the replay buffer have room (R157, R161, R163). -/
abbrev PathReady (k : Pkt) (p : Nat) (s : State) : Prop :=
  k.hdr.dst.toNat ≠ myNode s ∧ (∀ x ∈ s.fab.held, x.node ≠ k.hdr.dst.toNat) ∧ fget (FAB_ROUTE_UNREACHABLE k.hdr.dst.toNat) s = 0
    ∧ routePort k.hdr s = some p ∧ fabricUp p s = true ∧ (linkOf p s).queue = [] ∧ (linkOf p s).replay.length + 2 ≤ 512
    ∧ (linkOf p s).shared.sum + 18 ≤ 4096 ∧ (linkOf p s).shared.length = 5
    ∧ (pktSlots k).length ≤ 15 ∧ k.hdr.pktLen.toNat ≤ 18

/-- A packet of this Slosin as it is built: its length is that of its header and body. -/
def sentPkt (opc dst cmpId tag pa oparg : Nat) (body : List (BitVec 128)) (bittern : Bool) (s : State) : Pkt :=
  mkPkt opc dst cmpId tag pa oparg body bittern
    (hdrSlots opc (match legalLens opc with | [n] => n | _ => 2) + body.length) s

/-- The packet left on port `p` in one DATA flit, which the replay buffer keeps (R149, R151). -/
def SentOn (p : Nat) (k : Pkt) (s t : State) : Prop :=
  t.out = s.out ++ [.flit p (mkFlit (linkOf p s).txSeq (linkOf p s).rxSeq 1 (min (linkOf p s).giveBack 4095) (pktSlots k))]
    ∧ (linkOf p t).replay = (linkOf p s).replay ++ [((linkOf p s).txSeq, pktSlots k)]

/-- The DATA flits that packets of one flit each leave in, from a link on: sequence numbers count, credits go back. -/
def flitsOf (p : Nat) : Link → List Pkt → List Out
  | _, [] => []
  | l, k :: ks => .flit p (mkFlit l.txSeq l.rxSeq 1 (min l.giveBack 4095) (pktSlots k))
      :: flitsOf p { l with txSeq := (l.txSeq + 1) % 4096, giveBack := l.giveBack - min l.giveBack 4095 } ks

/-- The packets left on port `p`, one flit each. -/
def AllSentOn (p : Nat) (ks : List Pkt) (s t : State) : Prop := t.out = s.out ++ flitsOf p (linkOf p s) ks

/-- A fabric port that is up, with nothing queued and room for a few short packets. -/
abbrev PortClear (p : Nat) (s : State) : Prop :=
  fabricUp p s = true ∧ (linkOf p s).queue = [] ∧ (linkOf p s).replay.length + 4 ≤ 512 ∧ (linkOf p s).shared.sum + 18 ≤ 4096
    ∧ (linkOf p s).shared.length = 5

/-- A Hello of one kind, well formed, arrives for this configured Slosin; no packet with its header waits (R536). -/
abbrev HelloHeard (kind : Nat) (h : Hdr) (s : State) : Prop :=
  h.opc.toNat = 0x80 ∧ h.dst.toNat = myNode s ∧ malformed h = false ∧ (∀ x ∈ s.fab.inbox, x.hdr ≠ h)
    ∧ s.img.configured = true ∧ helloKind h = kind

/-- One Hello leaves through the only port `p` of the list, and names what the state `t` holds. -/
def HelloSent (kind level p : Nat) (s t : State) : Prop :=
  ∀ n q, neighbourOf p s = some (n, q) → PortClear p s → SentOn p (helloPkt kind n level t) s t

/-- No composition waits to come up, and far memory is not to be allotted. -/
abbrev NothingWaits (s : State) : Prop := s.img.waiting = [] ∧ s.mem.allotted = true

/-- An event of this code, composition and unit entered the event queue last (R522, R524). -/
def Raised (code cmpId unit : Nat) (s t : State) : Prop :=
  s.mgt.events.length < 4096 →
    ∃ e, t.mgt.events = s.mgt.events ++ [e] ∧ e.code = code ∧ e.severity = severityOf code ∧ e.cmpId = cmpId ∧ e.unit = unit

/-- With room in the queue, the step raised an event of a code for a composition; its rules leave the UNIT open. -/
def RaisedC (code cmpId : Nat) (s t : State) : Prop :=
  s.mgt.events.length < 4096 →
    ∃ e, t.mgt.events = s.mgt.events ++ [e] ∧ e.code = code ∧ e.severity = severityOf code ∧ e.cmpId = cmpId

/-- The lifetime log, with room left, has one more entry (R530). -/
def Logged (kind unit data : Nat) (s t : State) : Prop :=
  s.lr.log.length < logSize → t.lr.log = s.lr.log ++ [⟨kind, unit, s.lr.cur.coldResets, s.lr.cur.poweredS, data⟩]

/-- No piece waits for a context. -/
abbrev NoneWaits (s : State) : Prop := ∀ p ∈ s.pan.pieces, p.waiting = false

/-- The fields of TIL_ADOPT.ADOPTING. -/
def adoptingFlds : List Fld := (List.range 32).map TIL_ADOPT_ADOPTING

/-- The fields of RAS_PAN_INFO. -/
def panInfoFlds : List Fld :=
  [RAS_PAN_INFO_VSTEP, RAS_PAN_INFO_STRIKES, RAS_PAN_INFO_TILE_DROP, RAS_PAN_INFO_PHYS, RAS_PAN_INFO_SUSPECT]

/-! ### Engine commands -/

/-- Descriptor `d` is `x`: it runs opcode `opc` of engine `eng` and has not worked yet, its composition is `c`, its
translations are current and no delta is in progress. -/
abbrev Running (d eng opc : Nat) (x : Desc) (c : Comp) (s : State) : Prop :=
  descOf d s = some x ∧ x.phase = .running ∧ x.worked = false ∧ x.stale = false ∧ dEng x.raw = eng ∧ dOpc x.raw = opc
    ∧ compOfSluice x.sluice s = some c ∧ compAt c.slot s = some c ∧ c.slot < 64 ∧ s.img.deltaPhase = .idle

/-- The run meets no error in memory. -/
abbrev NoErrors (i : EngIn) : Prop := i.ue = [] ∧ i.ce = []

/-- The virtual address lies, for this descriptor, in a line of its composition that is at physical address `p` in the near
store of this Slosin and that no cache holds; the run may be written when `wr`. -/
def OnLine (x : Desc) (c : Comp) (va : Nat) (wr : Bool) (p : Nat) (s : State) : Prop :=
  ∃ a, runAt x.runs va = some (.pool a, wr) ∧ a % 64 = va % 64 ∧ LineAt c.slot (a / 64) c p s
    ∧ kget? s.coh.dir (lineKey c.slot (a / 64)) = none

/-- The physical address of the byte at `va` of a line at `p`. -/
def atVa (p va : Nat) : Nat := p / 64 * 64 + va % 64

/-- The bytes from physical address `a` on are `bs`, every other byte is as before. -/
def BytesSet (a : Nat) (bs : List Byte) (s t : State) : Prop :=
  ∀ b, byteAt b t = if a ≤ b ∧ b < a + bs.length then bs.getD (b - a) 0 else byteAt b s

/-- The `n` bytes at a virtual address can be read: they lie in one such line, which is not bittern. -/
def ReadOk (x : Desc) (c : Comp) (va n p : Nat) (s : State) : Prop :=
  (∃ wr, OnLine x c va wr p s) ∧ 0 < n ∧ va % 64 + n ≤ 64 ∧ isBittern (p / 64) s = false

/-- The `n` bytes at a virtual address can be written: they lie in one such line of a writable run. -/
def WriteOk (x : Desc) (c : Comp) (va n p : Nat) (s : State) : Prop := OnLine x c va true p s ∧ 0 < n ∧ va % 64 + n ≤ 64

/-- The descriptor has finished its work with a status, having moved some bytes. -/
def Finished (d status bytes : Nat) (t : State) : Prop :=
  ∃ y, descOf d t = some y ∧ y.phase = .finished ∧ y.worked = true ∧ y.status = status ∧ y.bytes = bytes

end Sys2Proof.Machine
end

