-- ==== Sys2Proof/Certificates/Slice0/Obligations.lean ====
section
/-! DEFINITION. The statements about the block, in the order of the chapters. -/

open Sys2Proof Sys2Proof.Machine

/-- One step of the block runs the command at the front of its queue on the state with the rest of the queue. The queue is the model's own (assumption 40). -/
def Obligations.StepRunsFrontCommand : Prop :=
  ∀ (c : Instr) (rest : List Instr) (s : State),
    step { s with pending := c :: rest } = exec c { s with pending := rest }

/-- On an empty queue a step leaves the state as it is: a DESIGN CHOICE (assumption 40), no rule of the spec. -/
def Obligations.EmptyQueueIdles : Prop :=
  ∀ s : State, s.pending = [] → step s = .next s

/-- After cold reset every field reads the value of its Reset column (R14), the identity register that of R1, and memory is never-written (R80, R81). -/
def Obligations.ResetLeavesResetValues : Prop :=
  (∀ f : Fld, fget f State.reset = f.reset)
  ∧ fget GLB_IDENTITY_GENERATION State.reset = 1 ∧ fget GLB_IDENTITY_STEP_NUM State.reset = 0
  ∧ fget GLB_IDENTITY_STEP_LETTER State.reset = 0 ∧ fget GLB_IDENTITY_PART State.reset = 0x0E10
  ∧ fget GLB_IDENTITY_ARCH State.reset = 1
  ∧ (readAccess 0 State.reset = 0x000000010E100001)
  ∧ [0, 1, 2, 3].map (fun k => readAccess (0x20 + 8 * k) State.reset) = [0x3F01FF, 0x007F003F00030007, 0x7001F, 0]
  ∧ [0, 1, 2, 3].map (fun k => readAccess (0x40 + 8 * k) State.reset) = [0x3F01FF, 0x007F003F00030007, 0x7001F, 0]
  ∧ (∀ p, isWritten p State.reset = false) ∧ (∀ l, isBittern l State.reset = false) ∧ (∀ a, byteAt a State.reset = 0)
  ∧ (∀ slot, compAt slot State.reset = none) ∧ State.reset.pending = []

/-- The invariant of `StepsKeepWellFormed` holds after reset. -/
def Obligations.ResetIsWellFormed : Prop :=
  State.reset.wf

/-- Every step of every command keeps the canonical form of the register file and of memory. -/
def Obligations.StepsKeepWellFormed : Prop :=
  ∀ s t : State, s.wf → step s = .next t → t.wf

/-- The spec gives every command an effect in every state, so none stops. -/
def Obligations.NoCommandStops : Prop :=
  ∀ (c : Instr) (s : State), Completes c s (fun _ => True)

/-- A register whose write has no effect beyond its fields. -/
abbrev PlainRegister (reg : Nat) : Prop :=
  inCmp reg = false ∧ inBrl reg = false ∧ inSlc reg = false ∧ ¬ (0x40 ≤ reg ∧ reg < 0x60) ∧ ¬ (0x408000 ≤ reg ∧ reg < 0x410000)
    ∧ agentIndex reg = none ∧ reg ∉ [0x900018, 0xA00000, 0xA00018, 0xC00000, 0xC00020]

/-- The value that a write leaves in a field, by its access type (R12); a reserved encoding leaves it unchanged (R8). -/
def writtenValue (w : RWr) (f : Fld) (a : Access) (s : State) : Nat :=
  if touches w f = false then fget f s else
  match a with
  | .ro | .roHu | .w1sHu => fget f s
  | .rw | .rwHu | .rws => if legalFld f (mergeFld w f s) s then mergeFld w f s else fget f s
  | .w1cHu => if mergeFld w f s = 1 then 0 else fget f s
  | .cnt => mergeFld w f s

/-- The write carries for this field a value that is refused and differs from the field's (R12, R556). -/
def refusedValue (w : RWr) (f : Fld) (a : Access) (s : State) : Bool :=
  touches w f && mergeFld w f s != fget f s &&
  match a with
  | .ro | .roHu => true
  | .rw | .rwHu | .rws => !legalFld f (mergeFld w f s) s
  | .w1cHu | .w1sHu | .cnt => false

/-- The access types of R12 over every register whose write starts nothing, with the partial write of R9 and the counting of R7, R8 and R556. -/
def Obligations.RegisterAccessTypes : Prop :=
  ∀ (src : Src) (a : RegAcc) (s : State) (fs : List (Fld × Access)),
    isManagement src = true → alignedAcc a = true → a.addr.toNat < 2 ^ 25 → PlainRegister (a.addr.toNat / 8 * 8) →
    regAt (a.addr.toNat / 8 * 8) = some fs → (∀ x ∈ fs, x.2 ≠ .w1sHu) →
    Completes (.registerWrite src a) s (fun t =>
      SameBut [.regs] s t
      ∧ (∀ x ∈ fs, fget x.1 t = writtenValue (wrOf a.addr.toNat a.wide a.value.toNat) x.1 x.2 s)
      ∧ RegsBut (GLB_IGNORED_WRITE_CNT :: fs.map (·.1)) s t
      ∧ (a.addr.toNat / 8 * 8 ≠ 0x10 →
          if fs.any (fun x => refusedValue (wrOf a.addr.toNat a.wide a.value.toNat) x.1 x.2 s)
          then Counted GLB_IGNORED_WRITE_CNT 1 s t else fget GLB_IGNORED_WRITE_CNT t = fget GLB_IGNORED_WRITE_CNT s))

/-- R18, over the whole block. -/
def Obligations.BrlWritesAreCounted : Prop :=
  ∀ (src : Src) (a : RegAcc) (s : State), isManagement src = true → a.addr.toNat % (if a.wide then 8 else 4) = 0 →
    Completes (.brlWrite src a) s (fun t =>
      if (regAt (0xD00000 + a.addr.toNat % 2 ^ 20 / 8 * 8)).isSome
      then Counted GLB_IGNORED_WRITE_CNT 1 s t ∧ RegsBut [GLB_IGNORED_WRITE_CNT] s t ∧ SameBut [.regs] s t
      else t = s)

/-- R9: accesses of wrong size or alignment. -/
def Obligations.BadAccessIsDiscarded : Prop :=
  (∀ (addr : BitVec 64) (s : State), Completes (.badSizeAccess true addr) s (fun t =>
      Counted GLB_BAD_ACCESS_CNT 1 s t ∧ RegsBut [GLB_BAD_ACCESS_CNT] s t ∧ SameBut [.regs] s t))
  ∧ (∀ (addr : BitVec 64) (s : State), Completes (.badSizeAccess false addr) s (fun t =>
      t.out = s.out ++ [.readData 0xFFFFFFFFFFFFFFFF] ∧ SameBut [.out] s t))
  ∧ (∀ (src : Src) (a : RegAcc) (s : State), isManagement src = true → a.addr.toNat % (if a.wide then 8 else 4) ≠ 0 →
      Completes (.registerWrite src a) s (fun t =>
        Counted GLB_BAD_ACCESS_CNT 1 s t ∧ RegsBut [GLB_BAD_ACCESS_CNT] s t ∧ SameBut [.regs] s t))

/-- The offsets that R549 puts in no block. -/
abbrev NoBlock (a : Nat) : Prop :=
  (0x560000 ≤ a ∧ a < 0x600000) ∨ (0x660000 ≤ a ∧ a < 0x700000) ∨ (0x780000 ≤ a ∧ a < 0x800000)
    ∨ (0xF00000 ≤ a ∧ a < 0x1000000) ∨ 0x2000000 ≤ a

/-- R549. -/
def Obligations.OffsetsOfNoBlock : Prop :=
  ∀ (src : Src) (a : RegAcc) (s : State), isManagement src = true → NoBlock a.addr.toNat →
    (a.addr.toNat % 8 = 0 → readAccess a.addr.toNat s = 0)
    ∧ (a.addr.toNat % 8 ≠ 0 → readAccess a.addr.toNat s = 2 ^ 64 - 1)
    ∧ (a.addr.toNat % (if a.wide then 8 else 4) = 0 → exec (.registerWrite src a) s = .next s)
    ∧ (a.addr.toNat % (if a.wide then 8 else 4) ≠ 0 → Completes (.registerWrite src a) s (fun t =>
        Counted GLB_BAD_ACCESS_CNT 1 s t ∧ RegsBut [GLB_BAD_ACCESS_CNT] s t ∧ SameBut [.regs] s t))
    ∧ Completes (.badSizeAccess true a.addr) s (fun t =>
        Counted GLB_BAD_ACCESS_CNT 1 s t ∧ RegsBut [GLB_BAD_ACCESS_CNT] s t ∧ SameBut [.regs] s t)
    ∧ Completes (.badSizeAccess false a.addr) s (fun t => t.out = s.out ++ [.readData 0xFFFFFFFFFFFFFFFF] ∧ SameBut [.out] s t)

/-- R553, for each half and for the whole of each of the four words. GLB_FEAT_OFFER is read-only and holds its reset value. -/
def Obligations.FeatureAcceptWrites : Prop :=
  ∀ (src : Src) (k : Fin 4) (a : RegAcc) (s : State), isManagement src = true → a.addr.toNat % (if a.wide then 8 else 4) = 0 →
    fget (GLB_FEAT_OFFER k) s = featOffer k →
    let w := wrOf (0x40 + 8 * k.val + a.addr.toNat % 8) a.wide a.value.toNat
    let v := mergeFld w (GLB_FEAT_ACCEPT k) s
    let stored := (v &&& featOffer k) ||| (if k.val = 0 then 1 else 0)
    Completes (.glbFeatAcceptWrite src k a) s (fun t =>
      fget (GLB_FEAT_ACCEPT k) t = stored
      ∧ (if v / 2 ^ w.lo % 2 ^ w.len = stored / 2 ^ w.lo % 2 ^ w.len
          then fget GLB_IGNORED_WRITE_CNT t = fget GLB_IGNORED_WRITE_CNT s else Counted GLB_IGNORED_WRITE_CNT 1 s t)
      ∧ (∀ c ∈ s.comps, compAt c.slot s = some c → ∀ i : Fin 4, c.slot < 64 →
          fget (CMP_FEAT_OFFER c.slot i) t
            = fget (GLB_FEAT_ACCEPT i) t - (fget (GLB_FEAT_ACCEPT i) t &&& bitsOf (excludedBits c) (64 * i.val) 64))
      ∧ (∀ i : Fin 4, i ≠ k → fget (GLB_FEAT_ACCEPT i) t = fget (GLB_FEAT_ACCEPT i) s)
      ∧ SameBut [.regs] s t)

/-- R79 (CLEAR), R110 (BEAT) and R114 (RESUME), by the host that R550 lets write them. -/
def Obligations.CompositionWindowCommands : Prop :=
  (∀ (src : Src) (slot : Fin 64) (c : Comp) (s : State), HostOf src slot c s → fget (CMP_HEAT_CTL_CLEAR slot) s = 0 →
      fget (CMP_HEAT_CTL_EPOCH slot) s ≤ 10 → fget (CMP_HEAT_CTL_FREEZE slot) s ≤ 1 →
      Completes (.heatClear src slot) s (fun t =>
        (∀ k, k / 2 ^ 26 = slot.val → kget? t.mem.heat k = none) ∧ (∀ k, k / 2 ^ 26 ≠ slot.val → kget? t.mem.heat k = kget? s.mem.heat k)
        ∧ fget (CMP_HEAT_CTL_CLEAR slot) t = 0 ∧ BytesKept s t ∧ SameBut [.regs, .mem] s t
        ∧ RegsBut [CMP_HEAT_CTL_CLEAR slot, GLB_IGNORED_WRITE_CNT] s t))
  ∧ (∀ (src : Src) (slot : Fin 64) (agent : BitVec 8) (c : Comp) (s : State), HostOf src slot c s → agent.toNat < c.hostAgents →
      fget (CMP_HEARTBEAT_BEAT slot) s = 0 →
      Completes (.beat src slot agent) s (fun t =>
        kmem t.hv.armed (agentKey slot agent.toNat) = true
        ∧ (∀ k, k ≠ agentKey slot agent.toNat → kmem t.hv.armed k = kmem s.hv.armed k)
        ∧ fget (CMP_HEARTBEAT_AGENT slot) t = agent.toNat ∧ SameBut [.regs, .hv] s t
        ∧ RegsBut [CMP_HEARTBEAT_AGENT slot, GLB_IGNORED_WRITE_CNT] s t))
  ∧ (∀ (src : Src) (slot : Fin 64) (job : BitVec 16) (c : Comp) (s : State), HostOf src slot c s →
      fget (CMP_JOB_CTL_RESUME slot) s = 0 → c.sluiceFirst + c.sluiceCount ≤ 65536 →
      Completes (.resume src slot job) s (fun t =>
        (∀ k, (k ∈ s.slc.sluices.map (·.1)) → c.sluiceFirst ≤ k → k < c.sluiceFirst + c.sluiceCount →
          fget (SLC_CTL_JOB k) s = job.toNat → fget (SLC_STATUS_STATE k) s = 2 → fget (SLC_STATUS_STATE k) t = 1)
        ∧ (∀ k, fget (SLC_STATUS_STATE k) s ≠ 2 → k < 65536 → fget (SLC_STATUS_STATE k) t = fget (SLC_STATUS_STATE k) s)
        ∧ fget (CMP_JOB_CTL_JOB slot) t = job.toNat ∧ SameBut [.regs] s t))

/-- R521: REG_READ and REG_WRITE. Each accepted request also enters the journal (R515), which is part of management's own state. -/
def Obligations.ManagementRegisterCommands : Prop :=
  (∀ (m : MgtReq) (addr : BitVec 64) (count : BitVec 8) (s : State), MgtUp m s → count.toNat ≤ 16 →
      (∀ i < count.toNat, addr.toNat + 8 * i ≠ 0x640000) →
      Completes (.regRead m addr count) s (fun t =>
        t.out = s.out ++ [.answer m.tag.toNat 0 ((List.range count.toNat).flatMap (fun i => natLe 8 (readAccess (addr.toNat + 8 * i) s)))]
        ∧ t.regs = s.regs ∧ SameBut [.out, .mgt] s t))
  ∧ (∀ (m : MgtReq) (addr : BitVec 64) (count : BitVec 8) (s : State), MgtUp m s → count.toNat > 16 →
      Completes (.regRead m addr count) s (fun t => t.out = s.out ++ [.answer m.tag.toNat 2 []] ∧ SameBut [.out, .mgt] s t))
  ∧ (∀ (m : MgtReq) (value : BitVec 64) (s : State), MgtUp m s →
      Completes (.regWrite m 0x18#64 value) s (fun t =>
        fget GLB_BAD_ACCESS_CNT t = value.toNat ∧ RegsBut [GLB_BAD_ACCESS_CNT] s t
        ∧ t.out = s.out ++ [.answer m.tag.toNat 0 []] ∧ SameBut [.regs, .out, .mgt] s t))
  ∧ (∀ (m : MgtReq) (addr value : BitVec 64) (s : State), m.secured = false → s.mgt.fwUp = true →
      Completes (.regWrite m addr value) s (fun t =>
        Counted (SEC_EVENT_CNT 1) 1 s t ∧ RegsBut [SEC_EVENT_CNT 1] s t ∧ t.out = s.out ++ [.answer m.tag.toNat 3 []]
        ∧ SameBut [.regs, .out] s t))

/-- R29, R30, R41, R42 and R45 to R47, R521 for the two delta commands. -/
def Obligations.ImagesAndDeltas : Prop :=
  (∀ s : State, s.mgt.fwUp = true → s.mgt.postOk = true → s.img.configured = false → fget LRC_STATUS_PRIMARY_OK s = 1 →
      fget GLB_PKG_STATUS_STRAP_BOOT s = 0 →
      (verifyFull s.img.slotA s = 0 → Completes (.imageRead) s (fun t =>
        t.img.configured = true ∧ t.img.serial = secField s.img.slotA 0x10 8 ∧ fget MGT_IMAGE_RESULT_A_RESULT t = 0
        ∧ fget MGT_IMAGE_RESULT_A_TRIED t = 1 ∧ fget MGT_IMAGE_RESULT_RUNNING_SLOT t = 0 ∧ BytesKept s t))
      ∧ (verifyFull s.img.slotA s ≠ 0 → verifyFull s.img.slotB s ≠ 0 → Completes (.imageRead) s (fun t =>
        t.img = s.img ∧ fget MGT_IMAGE_RESULT_A_RESULT t = verifyFull s.img.slotA s ∧ fget MGT_IMAGE_RESULT_A_TRIED t = 1
        ∧ fget MGT_IMAGE_RESULT_B_RESULT t = verifyFull s.img.slotB s ∧ fget MGT_IMAGE_RESULT_B_TRIED t = 1
        ∧ fget MGT_IMAGE_RESULT_IMAGE_FAIL_STK t = 1 ∧ SameBut [.regs, .mgt, .free, .out] s t)))
  ∧ (∀ (m : MgtReq) (bytes : List Byte) (s : State), MgtUp m s → (s.img.deltaPhase = .idle ∨ s.img.deltaPhase = .receiving) →
      bytes.length ≤ 1024 → s.img.deltaBuf.length < 2 ^ 32 →
      Completes (.deltaData m (BitVec.ofNat 32 s.img.deltaBuf.length) bytes) s (fun t =>
        t.img.deltaBuf = s.img.deltaBuf ++ bytes ∧ t.img.deltaPhase = .receiving
        ∧ t.out = s.out ++ [.answer m.tag.toNat 0 []] ∧ SameBut [.img, .mgt, .out] s t))
  ∧ (∀ (m : MgtReq) (len : BitVec 32) (s : State), MgtUp m s → (s.img.deltaPhase = .idle ∨ s.img.deltaPhase = .receiving) →
      len.toNat = s.img.deltaBuf.length →
      let b := s.img.deltaBuf
      (verifyDelta b true s ≠ 0 → Completes (.deltaEnd m len true) s (fun t =>
        fget MGT_IMAGE_RESULT_DELTA_RESULT t = verifyDelta b true s ∧ fget MGT_IMAGE_RESULT_DELTA_FAIL_STK t = 1
        ∧ t.img.deltaPhase = .idle ∧ t.img.deltaBuf = [] ∧ t.img.serial = s.img.serial ∧ BytesKept s t))
      ∧ (verifyDelta b true s = 0 → entryCount (sectionOf b 3) = 0 → sect? b 7 = none → s.prt.deltaHeld = [] →
        Completes (.deltaEnd m len true) s (fun t =>
          t.img.serial = secField b 0x10 8 ∧ t.img.deltaPhase = .idle ∧ t.img.staged = none ∧ t.comps = s.comps
          ∧ fget MGT_IMAGE_RESULT_DELTA_RESULT t = 0 ∧ BytesKept s t)))
  ∧ (∀ (d : Staged) (s : State), s.img.deltaPhase = .draining → s.img.staged = some d → reserveShort d s = false →
      d.entries.any (fun e => needsMarking e s) = true →
      (inFlightLeaving s = false → Completes (.deltaDrainDone) s (fun t =>
        t.img.deltaPhase = .marking ∧ t.img.staged = some d ∧ t.comps = s.comps ∧ SameBut [.regs, .img, .hv, .mgt, .free, .out] s t))
      ∧ (s.coh.dir = [] → Completes (.deltaDrainTimeout) s (fun t =>
        t.img.deltaPhase = .marking ∧ t.img.staged = some d ∧ t.comps = s.comps
        ∧ (∀ x ∈ s.slc.descs, descFlying x s = true → touchesLeaving x s = true →
            ∃ y ∈ t.slc.descs, y.id = x.id ∧ y.phase = .finished ∧ y.status = 0x12)
        ∧ SameBut [.regs, .img, .hv, .slc, .mgt, .free, .out] s t)))
  ∧ (∀ (d : Staged) (e : Comp) (s : State), s.img.deltaPhase = .marking → s.img.staged = some d → d.entries = [(e, true)] →
      d.metering = none → compById e.cmpId s = none → s.prt.deltaHeld = [] →
      Completes (.deltaMarkingDone) s (fun t =>
        t.img.serial = d.serial ∧ t.img.deltaPhase = .idle ∧ t.img.staged = none ∧ fget MGT_IMAGE_RESULT_DELTA_RESULT t = 0
        ∧ ∃ x ∈ t.comps, x.cmpId = e.cmpId ∧ x.slot = e.slot ∧ x.state = .active))

/-- R40, R67, R78, R83, R86 to R88 and R546. Memory above the near store is laid out as assumption 4 says. -/
def Obligations.PoolMemoryOverTime : Prop :=
  (∀ (p : Fin 24) (cap : BitVec 43) (s : State), s.img.configured = true → s.mem.enumerated = false → fget FAB_NODE_JOINED s ≠ 1 →
      hostLinks s = [p.val] → s.img.kept = [] → s.mem.expanders = [] →
      Completes (.expanderEnumeration [(p, some cap)]) s (fun t =>
        t.mem.expanders = [{ port := p, capacity := min cap.toNat (2 ^ 42), up := true, incarnation := 1 }]
        ∧ t.mem.enumerated = true ∧ t.mem.farTurn = p.val ∧ BytesKept s t ∧ SameBut [.mem] s t))
  ∧ (∀ (slot : Fin 64) (c : Comp) (s : State), compAt slot s = some c → c.nearBytes ≤ farWindow →
      (fget (CMP_HEAT_CTL_FREEZE slot) s = 1 → exec (.heatEpochEnd slot) s = .next s)
      ∧ (fget (CMP_HEAT_CTL_FREEZE slot) s = 0 → Completes (.heatEpochEnd slot) s (fun t =>
        (∀ r ∈ heatRegions c,
          let k := slot.val * 2 ^ 26 + r
          let h := kgetD s.mem.heat k {}
          kgetD t.mem.heat k {} = if kgetD s.mem.advice k 0 = 5 then h else
            { h with reads := h.reads / 2, writes := h.writes / 2, remote := h.remote / 2, sat := false, seen := false,
                     age := if h.seen then 0 else min 255 (h.age + 1) })
        ∧ BytesKept s t ∧ SameBut [.mem] s t)))
  ∧ (∀ (page p : Nat) (a : Acc) (t k : Nat) (c : Comp) (s : State), s.mem.busy = [(page, .fill)] → s.mem.waits = [a] → a.op = .ack →
      a.reply = .tile t k → k ≠ 3 → p / 4096 = page →
      LineAt a.slot a.line c p { s with mem := { s.mem with busy := [], waits := [], written := kin s.mem.written page true } } →
      Completes (.nwFillDone page) s (fun u => isWritten page u = true ∧ u.mem.busy = [] ∧ u.mem.waits = [] ∧ BytesKept s u
        ∧ u.out = s.out ++ [.toTile t ([0x40, 0x41, 0x42, 0x4C, 0x4A, 0x4B].getD k 0x4C) a.slot a.line .home 0 false]
        ∧ SameBut [.mem, .out] s u))
  ∧ (∀ (id : Nat) (s : State), Completes (.tierAccessDone id) s (fun t =>
        (∀ a, a ∈ t.mem.tier ↔ a ∈ s.mem.tier ∧ a.id ≠ id) ∧ BytesKept s t ∧ SameBut [.mem] s t))
  ∧ (∀ (id ns : Nat) (a : TierAcc) (x : Desc) (c : Comp) (s : State), s.mem.tier.find? (fun a => a.id == id) = some a →
      descOf a.desc s = some x → compOfSluice x.sluice s = some c → c.slot < 64 →
      let cause := match a.tier with | .far _ => 1 | .peer _ => 3 | .host _ => 4
      Completes (.tierLate id ns) s (fun t => Counted (SLC_STALL_CNT x.sluice cause) ns s t
        ∧ Counted (ENG_STALL_CNT (dEng x.raw) cause) ns s t ∧ Counted (CMP_STALL_CNT c.slot cause) ns s t
        ∧ RegsBut [SLC_STALL_CNT x.sluice cause, ENG_STALL_CNT (dEng x.raw) cause, CMP_STALL_CNT c.slot cause] s t
        ∧ BytesKept s t ∧ SameBut [.regs, .mem, .slc] s t))
  ∧ (∀ (id : Nat) (a : TierAcc) (x : Desc) (s : State), s.mem.tier.find? (fun a => a.id == id) = some a →
      descOf a.desc s = some x → x.status < 0x10 → x.phase ≠ .skipped →
      Completes (.accessTimeout id) s (fun t => (∀ b ∈ t.mem.tier, b.id ≠ id)
        ∧ descOf a.desc t = some { x with phase := .finished, status := 0x13 } ∧ BytesKept s t ∧ SameBut [.mem, .slc] s t))
  ∧ (∀ (port : Fin 24) (a : TierAcc) (x : Desc) (s : State), s.mem.tier = [a] → a.tier = .far port → descOf a.desc s = some x →
      x.status < 0x10 → x.phase ≠ .skipped →
      Completes (.farAccessFailed port) s (fun t => t.mem.tier = [] ∧ (∀ e ∈ t.mem.expanders, e.port = port.val → e.up = false)
        ∧ (∃ y, descOf a.desc t = some y ∧ y.phase = .finished ∧ y.status = 0x13) ∧ BytesKept s t))
  ∧ (∀ (port : Fin 24) (cap : BitVec 43) (e : Expander) (s : State), s.mem.expanders = [e] → e.port = port.val →
      (e.up = false → Completes (.expanderReturn port cap) s (fun t =>
        t.mem.expanders = [{ e with capacity := min cap.toNat (2 ^ 42), incarnation := e.incarnation + 1, retainWait := true }]
        ∧ BytesKept s t ∧ SameBut [.mem] s t))
      ∧ (e.retainWait = true → s.mem.allotted = true → Completes (.expanderRetainDeadline port) s (fun t =>
        t.mem.expanders = [{ e with up := true, retainWait := false, kept := false }]
        ∧ (∀ page, farFrameAddr (port.val * 2 ^ 21) ≤ page * 4096 → page * 4096 < farFrameAddr (port.val * 2 ^ 21) + 2 ^ 42 →
            isWritten page t = false)
        ∧ (∀ a, a < farFrameAddr (port.val * 2 ^ 21) ∨ farFrameAddr (port.val * 2 ^ 21) + 2 ^ 42 ≤ a → byteAt a t = byteAt a s)
        ∧ SameBut [.mem] s t)))

/-- R91, R92, R94, R95, R101, R102, R104, R105 and R107. -/
def Obligations.HarvestCommands : Prop :=
  (∀ (d : Nat) (x : Desc) (c : Comp) (s : State),
      let q : HvCmd := { hvCmdOf c.slot x.raw with desc := d }
      (∃ p, homeOf c q.pa s = .here p) → regionBusy c.slot q.pa s = false → hvCheck q c s = none →
      (Running d 0 0x40 x c s → Completes (.harvestDeclare d) s (fun t => Finished d 0 x.bytes t
        ∧ t.hv.regions = s.hv.regions ++ [{ slot := c.slot, base := q.pa, length := q.length, isProtected := q.policy = 1 }]
        ∧ SameBut [.hv, .slc] s t))
      ∧ (Running d 0 0x41 x c s → s.coh.dir = [] → Completes (.harvestPublish d) s (fun t =>
        descOf d t = some { x with phase := .waiting, worked := true }
        ∧ (∃ r, regionBase c.slot q.pa t = some r ∧ r.publishing = some q) ∧ SameBut [.hv, .slc] s t))
      ∧ (∀ (r : Region) (h : Harvest) (p : Nat), Running d 0 0x42 x c s → regionBase c.slot q.pa s = some r →
        openTarget r q.version = some h → db x.raw 40 8 % 64 ≤ 56 → OnLine x c (db x.raw 40 8) true p s →
        let i := freeView c.slot s
        let gen := kgetD s.hv.viewGen (c.slot * 4096 + i) 0
        Completes (.harvestOpen d) s (fun t => Finished d 0 x.bytes t
          ∧ t.hv.views = s.hv.views ++ [{ slot := c.slot, vslot := i, gen, base := q.pa, version := h.version }]
          ∧ BytesSet (atVa p (db x.raw 40 8)) (natLe 8 (h.version + (gen * 4096 + i) * 2 ^ 48)) s t))
      ∧ (Running d 0 0x43 x c s → Completes (.harvestClose d) s (fun t =>
        descOf d t = some { x with phase := .waiting, worked := true }
        ∧ (∃ v, viewOf c.slot q.hvid t = some v ∧ v.closing = some q) ∧ SameBut [.hv, .slc] s t))
      ∧ (∀ (r : Region) (h : Harvest), Running d 0 0x44 x c s → regionBase c.slot q.pa s = some r →
        r.harvests.find? (fun y => y.version == q.version) = some h →
        Completes (.harvestRetire d) s (fun t => Finished d 0 x.bytes t ∧ BytesKept s t
          ∧ ∃ r', regionBase c.slot q.pa t = some r'
            ∧ (h.st = .live → ∀ y ∈ r'.harvests, y.version ≠ q.version)
            ∧ (h.st = .held → ∃ y ∈ r'.harvests, y.version = q.version ∧ y.st = .retiring)))
      ∧ (Running d 0 0x45 x c s → Completes (.harvestUndeclare d) s (fun t => Finished d 0 x.bytes t ∧ BytesKept s t
        ∧ regionBase c.slot q.pa t = none)))
  ∧ (∀ (slot : Fin 64) (base : BitVec 56) (r : Region) (q : HvCmd) (n tag : Nat) (s : State), s.hv.regions = [r] → r.slot = slot.val →
      r.base = base.toNat → r.publishing = some q → q.fwd = some (n, tag) → r.queue = [] → s.mem.waits = [] →
      rangeQuiet slot base.toNat r.length s = true →
      Completes (.harvestCut slot base) s (fun t =>
        t.hv.regions = [{ r with lastVersion := r.lastVersion + 1, publishing := none,
                                 harvests := r.harvests ++ [{ version := r.lastVersion + 1, cut := s.hv.cuts }] }]
        ∧ t.hv.cuts = s.hv.cuts + 1 ∧ BytesKept s t))
  ∧ (∀ (slot : Fin 64) (hvid : BitVec 16) (v : View) (q : HvCmd) (r : Region) (h : Harvest) (x : Desc) (c : Comp) (s : State),
      viewOf slot hvid.toNat s = some v → v.closing = some q → viewInUse slot hvid.toNat s = false → q.fwd = none → q.opc = 0x43 →
      s.hv.regions = [r] → r.slot = slot.val → r.base = v.base → r.queue = [] →
      r.harvests.find? (fun y => y.version == v.version) = some h → h.refs > 1 →
      descOf q.desc s = some x → x.phase = .waiting → compOfSluice x.sluice s = some c →
      Completes (.harvestCloseDrained slot hvid) s (fun t => Finished q.desc 0 x.bytes t
        ∧ (∀ w ∈ t.hv.views, ¬ (w.slot = slot.val ∧ w.vslot = hvid.toNat % 4096))
        ∧ kgetD t.hv.viewGen (slot.val * 4096 + hvid.toNat % 4096) 0 = (v.gen + 1) % 16
        ∧ t.hv.regions = [{ r with harvests := r.harvests.map (fun y => if y.version == v.version then { y with refs := y.refs - 1 } else y) }]
        ∧ SameBut [.hv, .slc] s t))

/-- R99, R103, R106, R110, R143 and R144. -/
def Obligations.VersionCopiesHostsAndCaches : Prop :=
  (∀ (page : Nat) (ue : List Nat) (a : Acc) (r : Region) (h : Harvest) (s : State), s.mem.busy = [(page, .copy)] → s.mem.waits = [a] →
      accPage a s = some page → s.hv.regions = [r] → regionAt a.slot (a.line * 64) s = some r →
      (r.harvests.filter isLive).getLast? = some h → kget? h.blocks ((a.line * 64 - r.base) / 4096) = none →
      kmem h.zeros ((a.line * 64 - r.base) / 4096) = false → isWritten page s = true →
      Completes (.versionCopyDone page ue) s (fun t => t.mem.busy = []
        ∧ ∃ r' ∈ t.hv.regions, ∃ h' ∈ r'.harvests, h'.version = h.version
          ∧ ∃ b, kget? h'.blocks ((a.line * 64 - r.base) / 4096) = some b ∧ b.lines = (pageBlock page s).lines
            ∧ b.bittern = (pageBlock page (meetPage a.slot page ue s)).bittern))
  ∧ (∀ (page p : Nat) (a : Acc) (d : Line) (u : Nat) (c : Comp) (s : State), s.mem.busy = [(page, .exhaust)] → s.mem.waits = [a] →
      a.op = .write d (BitVec.allOnes 64) → a.poison = false → a.reply = .tile u 4 → p / 4096 = page →
      LineAt a.slot a.line c p { s with mem := { s.mem with busy := [], waits := [] } } →
      Completes (.exhaustWriteResume page) s (fun t => t.mem.busy = [] ∧ t.mem.waits = [] ∧ LineStored (p / 64) d s t
        ∧ isBittern (p / 64) t = false ∧ t.out = s.out ++ [.toTile u 0x4A a.slot a.line .home 0 false]))
  ∧ (∀ (slot : Fin 64) (agent : BitVec 8) (c : Comp) (s : State), compAt slot s = some c → s.coh.dir = [] →
      kmem s.hv.armed (agentKey slot agent.toNat) = true → s.mgt.events.length < 4096 →
      Completes (.heartbeatTimeout slot agent) s (fun t =>
        kmem t.hv.armed (agentKey slot agent.toNat) = false ∧ kmem t.hv.dead (agentKey slot agent.toNat) = true
        ∧ (∀ k, k ≠ agentKey slot agent.toNat → kmem t.hv.dead k = kmem s.hv.dead k ∧ kmem t.hv.armed k = kmem s.hv.armed k)
        ∧ (∀ a ∈ t.mem.tier, ¬ (a.slot = slot.val ∧ a.tier = .host agent))
        ∧ (∃ e ∈ t.mgt.events, e.code = 0x0014 ∧ e.cmpId = c.cmpId) ∧ BytesKept s t))
  ∧ (∀ (d : Nat) (x : Desc) (c : Comp) (s : State), Running d 0 0x48 x c s → c.software = true →
      (∀ e ∈ s.coh.copies, e.2.dirty = 0) →
      Completes (.cacheInval d) s (fun t => (∃ n, Finished d 0 n t) ∧ SameBut [.coh, .slc, .free] s t
        ∧ ∀ line ∈ runLines x.runs, ∀ i < 32, (getCopy i c.slot line t).st = .i))
  ∧ (∀ (d : Nat) (x : Desc) (c : Comp) (s : State), Running d 0 0x49 x c s → c.software = true → awayAgents c.slot s = [] →
      let ents := agentEntries c.slot s
      let snps := (runLines x.runs).flatMap (fun line => ents.map (fun e =>
        ({ port := e.1, entry := e.2, slot := c.slot, line, snp := .inv, inval := some d } : HostSnp)))
      (snps = [] → Completes (.hostInval d) s (fun t => (∃ n, Finished d 0 n t) ∧ SameBut [.slc, .free] s t))
      ∧ (snps ≠ [] → Completes (.hostInval d) s (fun t =>
          t.coh.hostSnps = s.coh.hostSnps ++ snps
          ∧ t.out = s.out ++ snps.map (fun h => .biSnp h.port h.entry (hpaOf h.port h.entry h.line s) .inv)
          ∧ (∃ y, descOf d t = some y ∧ y.phase = .waiting ∧ y.worked = true) ∧ SameBut [.coh, .slc, .out, .free] s t)))
  ∧ (∀ (slot : Fin 64) (pa : BitVec 56) (h : HostSnp) (d : Nat) (x : Desc) (s : State), s.coh.hostSnps = [h] → h.slot = slot.val →
      h.line = pa.toNat / 64 → h.inval = some d → s.fab.tags = [] → (getDir slot (pa.toNat / 64) s).txn = none →
      descOf d s = some x → x.phase = .waiting →
      Completes (.snoopTimeout slot pa) s (fun t => t.coh.hostSnps = [] ∧ descOf d t = some { x with phase := .finished, status := 0x13 }
        ∧ Counted (DIR_EVENT_CNT 2) 1 s t ∧ SameBut [.coh, .slc, .regs] s t))

/-- A tile's copy of a line is in a state, and no other copy changed. -/
abbrev CopyMoved (t slot line : Nat) (st : CSt) (s u : State) : Prop :=
  (getCopy t slot line u).st = st ∧ ∀ k, k ≠ copyKey t slot line → kget? u.coh.copies k = kget? s.coh.copies k

/-- A tile answered a snoop: its copy's state, and the response to the home with the data and dirty flag as held. -/
abbrev SnoopAnswered (t : Fin 32) (slot line : Nat) (st : CSt) (opc : Nat) (s u : State) : Prop :=
  CopyMoved t slot line st s u
    ∧ u.out = s.out ++ [.toHome (.tile t) opc slot line (getCopy t slot line s).data
        ((getCopy t slot line s).st = .m || (getCopy t slot line s).st = .miA) (getCopy t slot line s).bittern]
    ∧ RegsBut [DIR_EVENT_CNT 1] s u ∧ SameBut [.regs, .coh, .out] s u

/-- A grant reached a tile: its copy's state and data, and the Fin to the home. -/
abbrev Granted (t : Fin 32) (slot line : Nat) (st : CSt) (d : Option Line) (fin : Bool) (s u : State) : Prop :=
  CopyMoved t slot line st s u ∧ (∀ x, d = some x → (getCopy t slot line u).data = x)
    ∧ u.out = s.out ++ (if fin then [.toHome (.tile t) 0x49 slot line 0 false false] else []) ∧ SameBut [.coh, .out] s u

/-- R131: the cells of the cache-side table for tile agents, with the home as the target of their snoops. -/
def Obligations.CacheSideTable : Prop :=
  (∀ (t : Fin 32) (slot : Fin 64) (pa : BitVec 56) (c : Comp) (p : Nat) (s : State), LineAt slot (pa.toNat / 64) c p s →
      fget (TIL_STATE_POWER t) s ≥ 2 → (getCopy t slot (pa.toNat / 64) s).st = .i →
      Completes (.cacheLoad (.tile t) slot pa) s (fun u =>
        CopyMoved t slot (pa.toNat / 64) .isD s u
        ∧ u.out = s.out ++ [.toHome (.tile t) 0x01 slot (pa.toNat / 64) (getCopy t slot (pa.toNat / 64) s).data false
            (getCopy t slot (pa.toNat / 64) s).bittern] ∧ SameBut [.coh, .out] s u))
  ∧ (∀ (t : Fin 32) (slot : Fin 64) (pa : BitVec 56) (d : Line) (m : BitVec 64) (c : Comp) (p : Nat) (s : State),
      LineAt slot (pa.toNat / 64) c p s → fget (TIL_STATE_POWER t) s ≥ 2 →
      let x := getCopy t slot (pa.toNat / 64) s
      Completes (.cacheStore (.tile t) slot pa d m) s (fun u =>
        ((x.st = .e ∨ x.st = .m) → CopyMoved t slot (pa.toNat / 64) .m s u
          ∧ (getCopy t slot (pa.toNat / 64) u).data = overlay x.data d m ∧ u.out = s.out)
        ∧ (∀ r ∈ [(CSt.i, CSt.imD, 0x02), (.s, .smA, 0x03), (.f, .fmA, 0x03)], x.st = r.1 →
            CopyMoved t slot (pa.toNat / 64) r.2.1 s u ∧ (getCopy t slot (pa.toNat / 64) u).pend = x.pend ++ [(d, m)]
            ∧ u.out = s.out ++ [.toHome (.tile t) r.2.2 slot (pa.toNat / 64) x.data false x.bittern])
        ∧ SameBut [.coh, .out] s u))
  ∧ (∀ (t : Fin 32) (slot : Fin 64) (pa : BitVec 56) (c : Comp) (p : Nat) (s : State), LineAt slot (pa.toNat / 64) c p s →
      let x := getCopy t slot (pa.toNat / 64) s
      Completes (.cacheEvict (.tile t) slot pa) s (fun u =>
        (x.st = .s → CopyMoved t slot (pa.toNat / 64) .i s u ∧ u.out = s.out)
        ∧ (∀ r ∈ [(CSt.f, CSt.fiA, 0x06, false), (.e, .eiA, 0x05, false), (.m, .miA, 0x04, true)], x.st = r.1 →
            CopyMoved t slot (pa.toNat / 64) r.2.1 s u
            ∧ u.out = s.out ++ [.toHome (.tile t) r.2.2.1 slot (pa.toNat / 64) x.data r.2.2.2 x.bittern])
        ∧ SameBut [.coh, .out] s u))
  ∧ (∀ (t : Fin 32) (slot : Fin 64) (pa : BitVec 56) (s : State),
      let x := getCopy t slot (pa.toNat / 64) s
      (∀ r ∈ [(CSt.f, CSt.s), (.e, .s), (.m, .s), (.fmA, .smA), (.miA, .iiA), (.eiA, .iiA), (.fiA, .iiA)], x.st = r.1 →
        Completes (.snpS { agent := .tile t, slot, pa }) s (SnoopAnswered t slot (pa.toNat / 64) r.2 0x48 s))
      ∧ (∀ r ∈ [(CSt.e, CSt.i), (.m, .i), (.miA, .iiA), (.eiA, .iiA)], x.st = r.1 →
        Completes (.snpX { agent := .tile t, slot, pa }) s (SnoopAnswered t slot (pa.toNat / 64) r.2 0x48 s))
      ∧ (∀ r ∈ [(CSt.i, CSt.i, 0x45), (.s, .i, 0x45), (.f, .i, 0x45), (.e, .i, 0x45), (.m, .i, 0x48), (.isD, .isD, 0x45),
            (.imD, .imD, 0x45), (.smA, .imD, 0x45), (.fmA, .imD, 0x45), (.miA, .iiA, 0x48), (.eiA, .iiA, 0x45), (.fiA, .iiA, 0x45),
            (.iiA, .iiA, 0x45)], x.st = r.1 →
        Completes (.snpInv { agent := .tile t, slot, pa }) s (SnoopAnswered t slot (pa.toNat / 64) r.2.1 r.2.2 s))
      ∧ (∀ st ∈ [CSt.e, .m, .miA, .eiA], x.st = st →
        Completes (.snpCur { agent := .tile t, slot, pa }) s (SnoopAnswered t slot (pa.toNat / 64) st 0x48 s)))
  ∧ (∀ (t : Fin 32) (slot : Fin 64) (pa : BitVec 56) (d : Line) (b : Bool) (s : State),
      let x := getCopy t slot (pa.toNat / 64) s
      let m : AgentMsg := { agent := .tile t, slot, pa, data := d, bittern := b }
      x.pend = [] →
      (x.st = .isD → Completes (.dataF m) s (Granted t slot (pa.toNat / 64) .f (some d) true s))
      ∧ (x.st = .isD → Completes (.dataE m) s (Granted t slot (pa.toNat / 64) .e (some d) true s))
      ∧ (x.st = .imD → Completes (.dataM m) s (Granted t slot (pa.toNat / 64) .m (some d) true s))
      ∧ ((x.st = .smA ∨ x.st = .fmA) → Completes (.cmp m) s (Granted t slot (pa.toNat / 64) .m (some x.data) true s))
      ∧ ((x.st = .miA ∨ x.st = .eiA ∨ x.st = .fiA ∨ x.st = .iiA) →
          Completes (.wbAck m) s (Granted t slot (pa.toNat / 64) .i none false s)))

/-- R133 and R136 for requests of the tiles of this Slosin that need no snoop; R164 and R165 for writes and atomics. -/
def Obligations.RequestsAtTheHome : Prop :=
  ∀ (t : Fin 32) (slot : Fin 64) (pa : BitVec 56) (c : Comp) (p : Nat) (s : State), LineAt slot (pa.toNat / 64) c p s →
    let line := pa.toNat / 64
    let d := getDir slot line s
    let m : HomeMsg := { via := .tile t, slot, pa }
    (d = {} → (setEntries (homeSet slot line) s).length < 16 →
      Completes (.rdS m) s (fun u => u.out = s.out ++ [.toTile t 0x41 slot line .home (cellLine (p / 64) s) (isBittern (p / 64) s)]
        ∧ (getDir slot line u).st = .bFin ∧ (getDir slot line u).owner = some (.tile t) ∧ BytesKept s u ∧ u.comps = s.comps)
      ∧ Completes (.rdX m) s (fun u => u.out = s.out ++ [.toTile t 0x42 slot line .home (cellLine (p / 64) s) (isBittern (p / 64) s)]
        ∧ (getDir slot line u).st = .bFin ∧ (getDir slot line u).owner = some (.tile t) ∧ BytesKept s u ∧ u.comps = s.comps))
    ∧ (d.st = .s → d.sharers = [.tile t] → d.fw = none → d.txn = none → d.queue = [] →
      Completes (.upg m) s (fun u => u.out = s.out ++ [.toTile t 0x43 slot line .home 0 false]
        ∧ (getDir slot line u).st = .bFin ∧ (getDir slot line u).owner = some (.tile t) ∧ BytesKept s u ∧ u.comps = s.comps))
    ∧ (∀ data : Line, d.st = .em → d.owner = some (.tile t) → d.txn = none → d.queue = [] →
      Completes (.wb { m with data }) s (fun u => u.out = s.out ++ [.toTile t 0x44 slot line .home 0 false]
        ∧ (getDir slot line u).st = .u ∧ LineStored (p / 64) data s u ∧ isBittern (p / 64) u = false)
      ∧ Completes (.evE m) s (fun u => u.out = s.out ++ [.toTile t 0x44 slot line .home 0 false]
        ∧ (getDir slot line u).st = .u ∧ BytesKept s u))
    ∧ (d.st = .sf → d.fw = some (.tile t) → d.sharers = [] → d.txn = none → d.queue = [] →
      Completes (.evF m) s (fun u => u.out = s.out ++ [.toTile t 0x44 slot line .home 0 false]
        ∧ (getDir slot line u).st = .u ∧ BytesKept s u))
    ∧ (d = {} →
      Completes (.rdCur m) s (fun u => u.out = s.out ++ [.toTile t 0x4C slot line .home (cellLine (p / 64) s) (isBittern (p / 64) s)]
        ∧ (getDir slot line u).st = .u ∧ BytesKept s u)
      ∧ (∀ data : Line, Completes (.wrFull { m with data }) s (fun u => u.out = s.out ++ [.toTile t 0x4A slot line .home 0 false]
        ∧ (getDir slot line u).st = .u ∧ LineStored (p / 64) data s u ∧ isBittern (p / 64) u = false))
      ∧ (∀ (data : Line) (mask : BitVec 64), Completes (.wrPtl { m with data, oparg := mask }) s (fun u =>
        u.out = s.out ++ [.toTile t 0x4A slot line .home 0 false] ∧ (getDir slot line u).st = .u
        ∧ ∀ a, byteAt a u = if a / 64 = p / 64 ∧ mask.getLsbD (a % 64) = true
            then BitVec.ofNat 8 (data.toNat >>> (8 * (a % 64))) else byteAt a s))
      ∧ (∀ (data : Line) (ctl : BitVec 64), atomBad ctl = false →
          let r := atomLine ctl (BitVec.ofNat 64 data.toNat) (BitVec.ofNat 64 (data.toNat / 2 ^ 64)) (cellLine (p / 64) s)
          Completes (.atom { m with data, oparg := ctl }) s (fun u =>
            u.out = s.out ++ [.toTile t 0x4B slot line .home (BitVec.ofNat 512 r.2) (isBittern (p / 64) s)]
            ∧ (getDir slot line u).st = .u ∧ LineStored (p / 64) r.1 s u)))

/-- R133, R135 and R136: the responses, and the Agent lost row of R130. -/
def Obligations.ResponsesAtTheHome : Prop :=
  (∀ (a r : Fin 32) (slot : Fin 64) (pa : BitVec 56) (c : Comp) (p : Nat) (x : Txn) (s : State), LineAt slot (pa.toNat / 64) c p s →
    let line := pa.toNat / 64
    let d := getDir slot line s
    d.txn = some x → d.queue = [] → s.coh.victims = [] →
    (d.st = .bSnp → x.req.agent = some (.tile r) → (∃ k, x.req.reply = .tile r k) → x.req.kind = .rdX →
        x.await = [(.tile a, .inv)] → x.forwarded = false →
      Completes (.invAck { via := .tile a, slot, pa }) s (fun u =>
        u.out = s.out ++ [.toTile r 0x42 slot line .home (cellLine (p / 64) s) (isBittern (p / 64) s)]
        ∧ (getDir slot line u).st = .bFin ∧ BytesKept s u))
    ∧ (d.st = .bSnp → x.req.agent = some (.tile r) → x.req.kind = .rdX → x.await = [(.tile a, .x)] → x.forwarded = true →
      Completes (.rspFwd { via := .tile a, slot, pa }) s (fun u => u.out = s.out ∧ (getDir slot line u).st = .bFin ∧ BytesKept s u))
    ∧ (∀ data : Line, d.st = .bSnp → x.req.agent = some (.tile r) → x.req.kind = .rdS → x.await = [(.tile a, .s)] → x.forwarded = true →
      Completes (.rspFwdWb { via := .tile a, slot, pa, data }) s (fun u =>
        u.out = s.out ∧ (getDir slot line u).st = .bFin ∧ LineStored (p / 64) data s u))
    ∧ (∀ (data : Line) (dirty bittern : Bool), d.st = .bSnp → x.req.agent = none → (∃ k, x.req.reply = .tile r k) → x.req.kind = .rdCur →
        x.await = [(.tile a, .cur)] → x.forwarded = false → x.endSt = .em → x.endOwner = some (.tile a) →
      Completes (.rspData { via := .tile a, slot, pa, data, dirty, bittern }) s (fun u =>
        u.out = s.out ++ [.toTile r 0x4C slot line .home data bittern]
        ∧ (getDir slot line u).st = .em ∧ (getDir slot line u).owner = some (.tile a) ∧ (getDir slot line u).txn = none ∧ BytesKept s u))
    ∧ (d.st = .bFin → Completes (.fin { via := .tile r, slot, pa }) s (fun u =>
        (getDir slot line u).st = x.endSt ∧ (getDir slot line u).txn = none
        ∧ (x.endSt ≠ .u → (getDir slot line u).owner = x.endOwner ∧ (getDir slot line u).sharers = x.endSharers)
        ∧ u.out = s.out ∧ BytesKept s u))
    ∧ (∀ (m : Nat) (k : Snp), d.st = .bSnp → x.req.kind = .rdS → x.await = [(.peer m, k)] → s.coh.hostSnps = [] → s.fab.tags = [] →
      Completes (.snoopTimeout slot pa) s (fun u =>
        Counted (DIR_EVENT_CNT 2) 1 s u ∧ fget DIR_STATUS_SNOOP_FAIL_STK u = 1
        ∧ (d.owner = some (.peer m) → isBittern (p / 64) u = true) ∧ BytesKept s u))
    ∧ (∀ k : Snp, (.tile a, k) ∈ x.await → c.state = .active → s.img.staged = none →
      Completes (.tileSnoopTimeout slot pa a) s (fun u =>
        (∃ c', compAt slot u = some c' ∧ c'.state = .failed) ∧ fget (CMP_STATE_STATE slot) u = 3
        ∧ Counted (RAS_ERR_CNT 10) 1 s u ∧ (∀ e ∈ u.coh.dir, e.1 / 2 ^ 50 ≠ slot.val) ∧ BytesKept s u)))
  ∧ (∀ (h : Hdr) (line : Nat) (slot : Fin 64) (c : Comp) (p : Nat) (d : DirLine) (s : State), Delivered 0x89 h s →
      slotOfHdr h s = some slot.val → LineAt slot line c p s → line < 2 ^ 50 → s.coh.dir = [(lineKey slot line, d)] → d.st = .em →
      d.owner = some (.host (h.oparg.toNat % 256)) → d.queue = [] →
      Completes (.agentDown h) s (fun u => (getDir slot line u).st = .u ∧ isBittern (p / 64) u = true ∧ BytesKept s u))

/-- A CXL.mem request of the host of agent entry `k` that names a line homed here, at pool address `pa` and physical address
`p`, and that nothing holds. -/
abbrev HostLine (r : HostReq) (k : Nat) (slot : Fin 64) (c : Comp) (p pa : Nat) (s : State) : Prop :=
  memPort r.port s = true ∧ entryOf r.port r.biId.toNat s = some k ∧ fget (PRT_AGENT_SLOT r.port k) s = slot
    ∧ hdmPa r.port k r.hpa.toNat s = some pa ∧ pa % 64 = 0 ∧ LineAt slot (pa / 64) c p s ∧ c.state = .active ∧ c.hostRate = 0
    ∧ heldAt r.port s = [] ∧ s.prt.deltaHeld = [] ∧ s.img.deltaPhase = .idle
    ∧ bitAt (fget PWR_RETAIN_SELF_REFRESH s) (tileOf p) = false ∧ r.ecc = .clean ∧ r.poison = false

/-- R128 with the home in this Slosin, R27, R393 and R543. -/
def Obligations.CxlMemRequests : Prop :=
  (∀ (r : HostReq) (k : Nat) (slot : Fin 64) (c : Comp) (p pa : Nat) (s : State), HostLine r k slot c p pa s →
    let line := pa / 64
    let agent := fget (PRT_AGENT_AGENT r.port k) s
    let data := cellLine (p / 64) s
    let bit := isBittern (p / 64) s
    (getDir slot line s = {} → (setEntries (homeSet slot line) s).length < 16 →
      Completes (.memRdData r) s (fun u => u.out = s.out ++ [.hostCpl r.port k r.hpa.toNat 0 data bit 0]
        ∧ (getDir slot line u).st = .s ∧ (getDir slot line u).sharers = [.host agent] ∧ BytesKept s u)
      ∧ Completes (.memRd r true .a) s (fun u => u.out = s.out ++ [.hostCpl r.port k r.hpa.toNat 1 data bit 0]
        ∧ (getDir slot line u).st = .em ∧ (getDir slot line u).owner = some (.host agent) ∧ BytesKept s u)
      ∧ Completes (.memRd r false .i) s (fun u => u.out = s.out ++ [.hostCpl r.port k r.hpa.toNat 2 data bit 0]
        ∧ (getDir slot line u).st = .u ∧ BytesKept s u)
      ∧ (∀ nt : Bool, Completes (.memInv r nt .a) s (fun u => u.out = s.out ++ [.hostCpl r.port k r.hpa.toNat 1 0 false 0]
        ∧ (getDir slot line u).st = .em ∧ (getDir slot line u).owner = some (.host agent) ∧ BytesKept s u))
      ∧ (∀ mv : Meta, Completes (.memWr r true mv) s (fun u => u.out = s.out ++ [.hostCpl r.port k r.hpa.toNat 3 0 false 0]
        ∧ (getDir slot line u).st = .u ∧ LineStored (p / 64) r.data s u))
      ∧ (∀ mv : Meta, Completes (.memWr r false mv) s (fun u => u.out = s.out ++ [.hostCpl r.port k r.hpa.toNat 3 0 false 0]
        ∧ ∀ a, byteAt a u = if a / 64 = p / 64 ∧ r.mask.getLsbD (a % 64) = true
            then BitVec.ofNat 8 (r.data.toNat >>> (8 * (a % 64))) else byteAt a s)))
    ∧ (∀ (t : Fin 32) (x : Txn) (h : HostSnp), (getDir slot line s).txn = some x → (getDir slot line s).st = .bSnp →
        (getDir slot line s).queue = [] → s.coh.victims = [] → s.coh.hostSnps = [h] → h.port = r.port.val → h.entry = k →
        h.slot = slot.val → h.line = line → h.relay = none → h.inval = none → h.wrote = none → (∃ j, x.req.reply = .tile t j) → x.forwarded = false →
        (h.snp = .inv → x.req.kind = .rdX → x.req.agent = some (.tile t) → x.await = [(.host agent, .inv)] →
          Completes (.biRspI r false) s (fun u => u.out = s.out ++ [.toTile t 0x42 slot line .home data bit]
            ∧ (getDir slot line u).st = .bFin ∧ u.coh.hostSnps = [] ∧ BytesKept s u))
        ∧ (h.snp = .s → x.req.kind = .rdS → x.req.agent = some (.tile t) → x.await = [(.host agent, .s)] → x.endSt = .sf →
          Completes (.biRspS r false) s (fun u => u.out = s.out ++ [.toTile t 0x40 slot line .home data bit]
            ∧ (getDir slot line u).st = .bFin ∧ u.coh.hostSnps = [] ∧ BytesKept s u))
        ∧ (h.snp = .cur → x.req.kind = .rdCur → x.req.agent = none → x.await = [(.host agent, .cur)] → x.endSt = .em →
            x.endOwner = some (.host agent) → x.rdata = none →
          Completes (.biRspE r false) s (fun u => u.out = s.out ++ [.toTile t 0x4C slot line .home data bit]
            ∧ (getDir slot line u).st = .em ∧ (getDir slot line u).owner = some (.host agent) ∧ u.coh.hostSnps = [] ∧ BytesKept s u))
        ∧ Completes (.biConflict r) s (fun u => u.out = s.out ++ [.biConflictAck r.port k r.hpa.toNat]
            ∧ u.coh.hostSnps = [{ h with conflict := true }] ∧ SameBut [.coh, .out] s u)))
  ∧ (∀ (r : HostReq) (s : State), exec (.memSpecRd r) s = .next s ∧ Completes (.memSpecRd r) s (fun u => u = s))
  ∧ (∀ (r : HostReq) (s : State), memPort r.port s = true → entryOf r.port r.biId.toNat s = none → s.prt.deltaHeld = [] →
      heldAt r.port s = [] → s.img.deltaPhase = .idle →
      Completes (.memRdData r) s (fun u => u.out = s.out ++ [.hostCpl r.port 16 r.hpa.toNat 2 0 true 0]
        ∧ Counted (PRT_EVENT_CNT r.port 4) 1 s u ∧ BytesKept s u))
  ∧ (∀ (port : Fin 24) (s : State), fget (PRT_STATUS_ROLE port) s = 1 → fget (PRT_STATUS_LINK_UP port) s = 1 →
      Completes (.configRequest port) s (fun u => u.out = s.out ++ [.config port (!portReady port s)] ∧ SameBut [.out] s u))

/-- R149, R151 to R153, R160 and R174. That IDLE, NAK and AUDIT flits carry the next number without consuming it is the model's reading (assumption 16). -/
def Obligations.FlitsOnALink : Prop :=
  ∀ (p : Fin 24) (raw : BitVec 2048) (fec : Bool) (s : State), receives p s = true →
    let l := linkOf p s
    let ack := bitsOf raw.toNat 12 12
    let kept := if l.replay.any (fun f => f.1 == ack) then after ack l.replay else l.replay
    (∀ k : Pkt, flitOk raw fec = true → flitType raw = 1 → bitsOf raw.toNat 0 12 = (l.rxSeq + 1) % 4096 → l.rxPart = [] →
        takePkts 16 (flitSlots raw) = ([k], []) → k.hdr.vc.toNat ≠ 4 → k.hdr.opc.toNat ≠ 0x88 →
        (judge k.hdr s = .deliver → Completes (.dataFlit p raw fec) s (fun t =>
          t.fab.inbox = s.fab.inbox ++ [k] ∧ (linkOf p t).rxSeq = bitsOf raw.toNat 0 12 ∧ SameBut [.fab, .out] s t))
        ∧ (judge k.hdr s = .stale → Completes (.dataFlit p raw fec) s (fun t =>
          t.fab.inbox = s.fab.inbox ∧ (linkOf p t).rxSeq = bitsOf raw.toNat 0 12 ∧ Counted FAB_STALE_DROP_CNT 1 s t
          ∧ RegsBut [FAB_STALE_DROP_CNT] s t ∧ SameBut [.regs, .fab, .out] s t)))
    ∧ (flitOk raw fec = true → flitType raw = 0 → bitsOf raw.toNat 0 12 = (l.rxSeq + 1) % 4096 → l.queue = [] →
        Completes (.idleFlit p raw fec) s (fun t =>
          (linkOf p t).rxSeq = l.rxSeq ∧ (linkOf p t).txSeq = l.txSeq ∧ (linkOf p t).replay = kept ∧ SameBut [.fab] s t))
    ∧ (flitOk raw fec = true → flitType raw = 2 → l.queue = [] → l.nakRun + 1 < 16 → l.nakMs + 1 < 256 →
        Completes (.nakFlit p raw fec) s (fun t =>
          t.out = s.out ++ kept.map (fun f => .flit p (mkFlit f.1 l.rxSeq 1 0 f.2)) ∧ (linkOf p t).replay = kept
          ∧ Counted (FAB_EVENT_CNT 0) 1 s t ∧ RegsBut [FAB_EVENT_CNT 0] s t ∧ SameBut [.regs, .fab, .out] s t))
    ∧ (∀ sums : List (Fin 41 × Nat), flitOk raw fec = true → flitType raw = 3 →
        ((∀ x ∈ sums, x.2 = poolSize x.1) → l.queue = [] → Completes (.auditFlit p raw fec sums) s (fun t =>
          (linkOf p t).replay = kept ∧ SameBut [.fab] s t))
        ∧ ((∃ x ∈ sums, x.2 ≠ poolSize x.1) → Completes (.auditFlit p raw fec sums) s (fun t =>
          fget FAB_STATUS_AUDIT_STK t = 1 ∧ fget RAS_STATUS_AUDIT_STK t = 1 ∧ fget RAS_STATUS_AUDIT_CODE t = 1
          ∧ fget (PRT_STATUS_LINK_UP p) t = 0 ∧ (linkOf p t).down = true ∧ BytesKept s t)))
    ∧ (flitOk raw fec = false → kmem s.prt.rebuilding p = false →
        let bad := fun t : State => t.out = s.out ++ [.flit p (mkFlit l.txSeq l.rxSeq 2 0 [])] ∧ (linkOf p t).rxSeq = l.rxSeq
          ∧ t.fab.inbox = s.fab.inbox ∧ Counted (FAB_EVENT_CNT 0) 1 s t ∧ RegsBut [FAB_EVENT_CNT 0] s t
          ∧ SameBut [.regs, .fab, .out] s t
        Completes (.dataFlit p raw fec) s bad ∧ Completes (.idleFlit p raw fec) s bad ∧ Completes (.nakFlit p raw fec) s bad
        ∧ ∀ sums, Completes (.auditFlit p raw fec sums) s bad)
    ∧ Completes (.auditFlitTimer p) s (fun t => ∃ slots : List (BitVec 128), slots.length = 15
        ∧ t.out = s.out ++ [.flit p (mkFlit l.txSeq l.rxSeq 3 0 slots)] ∧ (linkOf p t).txSeq = l.txSeq
        ∧ SameBut [.fab, .free, .out] s t)

/-- R152, R163, R170 and R171. -/
def Obligations.LinksGoDownAndReconcile : Prop :=
  (∀ (p : Fin 24) (s : State), receives p s = true →
      Completes (.linkSilence p) s (fun t =>
        fget (PRT_STATUS_LINK_UP p) t = 0 ∧ fget (PRT_STATUS_DOWN_STK p) t = 1 ∧ fget FAB_STATUS_LINK_DOWN_STK t = 1
        ∧ (linkOf p t).down = true ∧ Counted (FAB_EVENT_CNT 1) 1 s t
        ∧ (∀ d < 4096, fget (FAB_ROUTE_PRIM_VALID d) s = 1 → fget (FAB_ROUTE_PRIMARY d) s = p.val →
            fget (FAB_ROUTE_ALT_VALID d) s = 1 → fget (FAB_ROUTE_USE_ALT d) t = 1)
        ∧ SameBut [.regs, .fab, .mgt, .free, .out] s t))
  ∧ (∀ (p : Fin 24) (q : Nat) (h : Hdr) (k : Pkt) (s : State), Delivered 0x86 h s → (linkOf p s).down = true →
      (linkOf p s).reconciling = true → (linkOf p s).replay = [] → (linkOf p s).queue = [k] → PathReady k q s →
      (∀ x ∈ s.fab.held, p.val ∉ x.ports) →
      Completes (.reconcile p h) s (fun t =>
        SentOn q k s t ∧ (linkOf p t).reconciling = false ∧ (linkOf p t).queue = [] ∧ Counted (FAB_EVENT_CNT 2) 1 s t
        ∧ RegsBut [FAB_EVENT_CNT 2] s t ∧ SameBut [.regs, .fab, .out] s t))
  ∧ (∀ (p : Fin 24) (s : State), (linkOf p s).reconciling = true →
      Completes (.reconcileTimeout p) s (fun t =>
        (linkOf p t).reconciling = false
        ∧ Counted (FAB_EVENT_CNT 3) ((linkPkts (linkOf p s).replay ++ (linkOf p s).queue).filter
            (fun k => k.hdr.vc = 0 || k.hdr.vc = 1 || k.hdr.vc = 3)).length s t
        ∧ SameBut [.regs, .fab, .out] s t))

/-- R164 to R166, and the tags of R160. -/
def Obligations.BulkTransfersAndTheirEnds : Prop :=
  (∀ (h : Hdr) (c : Comp) (p q : Nat) (s : State), Delivered 0x0B h s → compById h.cmpId.toNat s = some c → c.state ≠ .failed →
      bitsOf h.oparg.toNat 0 2 = 0 → LineAt c.slot (h.pa.toNat / 64) c p s → getDir c.slot (h.pa.toNat / 64) s = {} →
      (∀ b ∈ s.coh.bulks, b.id ≠ s.coh.births) →
      let k := mkPkt 0x61 h.src.toNat c.cmpId h.tag.toNat 0 0 (lineSlots (cellLine (p / 64) s)) (isBittern (p / 64) s) 5 s
      PathReady k q s →
      Completes (.bulkRd h) s (fun t => SentOn q k s t ∧ BytesKept s t ∧ (getDir c.slot (h.pa.toNat / 64) t).st = .u))
  ∧ (∀ (k : Pkt) (c : Comp) (p q : Nat) (s : State), Delivered 0x60 k.hdr s → compById k.hdr.cmpId.toNat s = some c →
      c.state ≠ .failed → bitsOf k.hdr.oparg.toNat 4 2 = 0 → bitAt k.hdr.oparg.toNat 0 = false →
      LineAt c.slot (k.hdr.pa.toNat / 64) c p s → getDir c.slot (k.hdr.pa.toNat / 64) s = {} →
      (∀ b ∈ s.coh.bulks, b.id ≠ s.coh.births) →
      let r := sentPkt 0x4A k.hdr.src.toNat c.cmpId k.hdr.tag.toNat 0 0 [] false s
      PathReady r q s →
      Completes (.bulkWr k) s (fun t =>
        SentOn q r s t ∧ LineStored (p / 64) (slotsLine k.body) s t ∧ isBittern (p / 64) t = false))
  ∧ (∀ (k : Pkt) (n id : Nat) (pk : Option Pkt) (s : State), kget? s.fab.tags k.hdr.tag.toNat = some ⟨n, .access id, pk⟩ →
      let ended := fun t : State => kget? t.fab.tags k.hdr.tag.toNat = none ∧ (∀ a ∈ t.mem.tier, a.id ≠ id) ∧ BytesKept s t
        ∧ t.slc = s.slc ∧ SameBut [.fab, .mem] s t
      (Delivered 0x61 k.hdr s → Completes (.bulkData k) s ended) ∧ (Delivered 0x4B k.hdr s → Completes (.atomData k) s ended)
      ∧ (Delivered 0x4C k.hdr s → Completes (.curData k) s ended) ∧ (Delivered 0x4A k.hdr s → Completes (.wrCmp k.hdr) s ended))
  ∧ (∀ (k : Pkt) (n t slot line o : Nat) (pk : Option Pkt) (s : State),
      kget? s.fab.tags k.hdr.tag.toNat = some ⟨n, .tileOp t slot line o, pk⟩ →
      (Delivered 0x4A k.hdr s → Completes (.wrCmp k.hdr) s (fun u =>
        kget? u.fab.tags k.hdr.tag.toNat = none ∧ SameBut [.fab] s u))
      ∧ (Delivered 0x4B k.hdr s → Completes (.atomData k) s (fun u => kget? u.fab.tags k.hdr.tag.toNat = none
        ∧ u.out = s.out ++ [.toTile t 0x4B slot line .home (BitVec.ofNat 512 (slotsNat k.body)) k.hdr.bittern]
        ∧ SameBut [.fab, .out] s u))
      ∧ (Delivered 0x4C k.hdr s → Completes (.curData k) s (fun u => kget? u.fab.tags k.hdr.tag.toNat = none
        ∧ u.out = s.out ++ [.toTile t 0x4C slot line .home (slotsLine k.body) k.hdr.bittern]
        ∧ SameBut [.fab, .coh, .out] s u)))
  ∧ (∀ (h : Hdr) (n id : Nat) (pk : Option Pkt) (a : TierAcc) (x : Desc) (s : State), Delivered 0x4D h s → h.reason.toNat ≠ 3 →
      kget? s.fab.tags h.tag.toNat = some ⟨n, .access id, pk⟩ → s.mem.tier.find? (fun a => a.id == id) = some a →
      descOf a.desc s = some x → x.status < 0x10 → x.phase ≠ .skipped →
      Completes (.nak h) s (fun t => kget? t.fab.tags h.tag.toNat = none ∧ (∀ a ∈ t.mem.tier, a.id ≠ id) ∧ BytesKept s t
        ∧ descOf a.desc t = some { x with phase := .finished, status := (match h.reason.toNat with | 4 => 0x12 | 5 => 0x3F | _ => 0x13) }
        ∧ SameBut [.fab, .mem, .slc] s t))
  ∧ (∀ (h : Hdr) (n q : Nat) (u : TagUse) (k : Pkt) (s : State), Delivered 0x4D h s → h.reason.toNat = 3 →
      kget? s.fab.tags h.tag.toNat = some ⟨n, u, some k⟩ → k.hdr.opc ≠ 0x0A → k.hdr.opc ≠ 0x0C → PathReady k q s →
      Completes (.nak h) s (fun t => SentOn q k s t ∧ t.fab.tags = s.fab.tags ∧ SameBut [.fab, .out] s t))

/-- R163, R92, R102, R113 and R169. Where RouteSet and JobStop carry their arguments is the model's choice (assumption 17). -/
def Obligations.RoutesFencesAndEnginesOfOthers : Prop :=
  (∀ (src : Src) (d : BitVec 12) (a : RegAcc) (fs : List (Fld × Access)) (s : State), isManagement src = true →
      a.addr.toNat % (if a.wide then 8 else 4) = 0 → regAt (0x408000 + 8 * d.toNat) = some fs →
      let old := portsTo d.toNat s
      Completes (.fabRouteWrite src d a) s (fun t =>
        (∀ x ∈ fs, fget x.1 t = writtenValue (wrOf (0x408000 + 8 * d.toNat + a.addr.toNat % 8) a.wide a.value.toNat) x.1 x.2 s)
        ∧ RegsBut (GLB_IGNORED_WRITE_CNT :: fs.map (·.1)) s t ∧ SameBut [.regs, .fab, .out] s t
        ∧ (∀ p r, old = p :: r → portsTo d.toNat t ≠ old → d.toNat ≠ myNode s → (linkOf p s).down = false →
            ∃ x ∈ t.fab.held, x.node = d.toNat ∧ 3 + old.length ≤ x.fences)))
  ∧ (∀ (k : Pkt) (s : State), Delivered 0x81 k.hdr s → bitsOf k.hdr.oparg.toNat 12 4 = 1 →
      Completes (.routeSet k) s (fun t =>
        exec (.fabRouteWrite .firmware (BitVec.ofNat 12 k.hdr.oparg.toNat)
          ⟨0, true, BitVec.ofNat 64 (bitsOf (slotsNat k.body) 0 64)⟩) s = .next t))
  ∧ (∀ o ∈ [0x0F, 0x2F, 0x4F, 0x6F], ∀ (h : Hdr) (q : Nat) (s : State), Delivered o h s →
      let r := sentPkt 0x87 h.src.toNat 0 h.tag.toNat 0 0 [] false s
      PathReady r q s → Completes (.fence h) s (fun t => SentOn q r s t ∧ SameBut [.fab, .out] s t))
  ∧ (∀ (h : Hdr) (x : HeldDst) (s : State), Delivered 0x87 h s → s.fab.held = [x] → x.node = h.src.toNat →
      (x.fences ≥ 2 → Completes (.fenceAck h) s (fun t => t.fab.held = [{ x with fences := x.fences - 1 }] ∧ SameBut [.fab] s t))
      ∧ (∀ (k : Pkt) (q : Nat), x.fences = 1 → x.ports = [] → x.pkts = [k] →
          PathReady k q { s with fab := { s.fab with held := [] } } →
          Completes (.fenceAck h) s (fun t => t.fab.held = [] ∧ SentOn q k s t ∧ SameBut [.fab, .out] s t)))
  ∧ (∀ (k : Pkt) (c : Comp) (q : Nat) (s : State), Delivered 0x0C k.hdr s → compById k.hdr.cmpId.toNat s = some c →
      compAt c.slot s = some c → c.state ≠ .failed →
      let v := { hvCmdOf c.slot (BitVec.ofNat 1024 (slotsNat (k.body.take 4))) with fwd := some (k.hdr.src.toNat, k.hdr.tag.toNat) }
      v.opc = 0x40 → regionBusy c.slot v.pa s = false → hvCheck v c s = none →
      let n := recordNat v.seq 0 0 false 0 0 0 0 0 0 0
      let r := sentPkt 0x4E k.hdr.src.toNat c.cmpId k.hdr.tag.toNat v.pa 0 [BitVec.ofNat 128 n, BitVec.ofNat 128 (n / 2 ^ 128)] false s
      PathReady r q s →
      Completes (.engFwd k) s (fun t => SentOn q r s t ∧ SameBut [.hv, .fab, .out] s t
        ∧ t.hv.regions = s.hv.regions ++ [{ slot := c.slot, base := v.pa, length := v.length, isProtected := v.policy = 1 }]))
  ∧ (∀ (k : Pkt) (n d : Nat) (pk : Option Pkt) (x : Desc) (c : Comp) (s : State), Delivered 0x4E k.hdr s →
      kget? s.fab.tags k.hdr.tag.toNat = some ⟨n, .engine d, pk⟩ → descOf d s = some x → x.phase ≠ .finished → x.phase ≠ .skipped →
      compOfSluice x.sluice s = some c → dOpc x.raw ≠ 0x41 → dOpc x.raw ≠ 0x42 →
      Completes (.engCmp k) s (fun t => kget? t.fab.tags k.hdr.tag.toNat = none
        ∧ descOf d t = some { x with phase := .finished, status := bitsOf (slotsNat (k.body.take 2)) 32 8, worked := true }
        ∧ SameBut [.fab, .slc] s t))
  ∧ (∀ (h : Hdr) (c : Comp) (s : State), Delivered 0x82 h s → compById h.cmpId.toNat s = some c → compAt c.slot s = some c →
      c.slot < 64 → Completes (.jobStop h) s (fun t =>
        (∀ k ∈ s.slc.sluices.map (·.1), c.sluiceFirst ≤ k → k < c.sluiceFirst + c.sluiceCount → fget (SLC_CTL_JOB k) s = h.tag.toNat →
          fget (SLC_STATUS_STATE k) s = 1 → fget (SLC_STATUS_STATE k) t = 2
          ∧ ∀ x ∈ s.slc.descs, x.sluice = k → x.phase ≠ .finished → x.phase ≠ .skipped →
              ∃ y ∈ t.slc.descs, y.id = x.id ∧ y.phase = .finished ∧ y.status = 0x10)
        ∧ (∀ k, fget (SLC_CTL_JOB k) s ≠ h.tag.toNat → fget (SLC_STATUS_STATE k) t = fget (SLC_STATUS_STATE k) s)
        ∧ SameBut [.regs, .slc] s t))
  ∧ (∀ s : State, Completes (.hotlineWindowEnd) s (fun t =>
        fget FAB_HOTLINE_INFO_DEPTH t = s.fab.hotDepth % 2 ^ FAB_HOTLINE_INFO_DEPTH.width
        ∧ (s.fab.hotDepth = 0 → fget FAB_HOTLINE_ADDR_LINE t = 0) ∧ (s.fab.hotDepth < 32 → fget FAB_HOTLINE_INFO_CMP_ID t = 0)
        ∧ (∀ e ∈ s.coh.dir, e.2.queue.length ≤ t.fab.hotDepth)
        ∧ RegsBut [FAB_HOTLINE_INFO_DEPTH, FAB_HOTLINE_ADDR_LINE, FAB_HOTLINE_INFO_CMP_ID] s t ∧ SameBut [.regs, .fab] s t))

/-- R155, R158, R172, R173, R518 and R539. -/
def Obligations.NodesAndManagementPackets : Prop :=
  (∀ (h : Hdr) (s : State), Delivered 0x85 h s →
      let n := h.oparg.toNat % 4096
      Completes (.incarnation h) s (fun t => fget (peerIncFld n) t = bitsOf h.oparg.toNat 16 16 ∧ fget (FAB_ROUTE_UNREACHABLE n) t = 0
        ∧ (n = myNode s → fget FAB_NODE_INCARNATION t = bitsOf h.oparg.toNat 16 16)
        ∧ RegsBut (peerIncFld n :: FAB_ROUTE_UNREACHABLE n :: if n = myNode s then [FAB_NODE_INCARNATION] else []) s t
        ∧ SameBut [.regs] s t))
  ∧ (∀ (h : Hdr) (s : State), Delivered 0x83 h s → Completes (.heartbeat h) s (fun t =>
        kget? t.fab.missed h.src.toNat = none ∧ (∀ n, n ≠ h.src.toNat → kget? t.fab.missed n = kget? s.fab.missed n) ∧ SameBut [.fab] s t))
  ∧ (∀ (q : Nat) (s : State), fget FAB_NODE_JOINED s = 1 →
      let dst := if fget FAB_NODE_MASTER s = 1 then fget FAB_FORM_STANDBY_NODE s else fget FAB_FORM_MASTER_NODE s
      let k := sentPkt 0x83 dst 0 0 0 0 [] false s
      dst ≠ myNode s → PathReady k q s → Completes (.heartbeatSend) s (fun t => SentOn q k s t ∧ SameBut [.fab, .out] s t))
  ∧ (∀ (n : BitVec 12) (down : Bool) (s : State),
      let m := kgetD s.fab.missed n.toNat 0 + 1
      (fget FAB_NODE_MASTER s ≠ 1 ∨ (m < 3 ∧ down = false) → Completes (.heartbeatMiss n down) s (fun t =>
        kget? t.fab.missed n.toNat = some m ∧ SameBut [.fab] s t))
      ∧ (fget FAB_NODE_MASTER s = 1 → m ≥ 3 ∨ down = true → fget (FAB_ROUTE_UNREACHABLE n.toNat) s = 0 → n.toNat ≠ myNode s →
          s.engs.colls = [] → s.fab.tags = [] → s.mem.tier = [] → (∀ c ∈ s.comps, n.toNat ∉ c.members) → s.mgt.events.length < 4096 →
          Completes (.heartbeatMiss n down) s (fun t => fget (FAB_ROUTE_UNREACHABLE n.toNat) t = 1
            ∧ kget? t.fab.missed n.toNat = none ∧ (∃ e ∈ t.mgt.events, e.code = 0x0026) ∧ BytesKept s t)))
  ∧ (∀ (n : BitVec 12) (tag : Nat) (pk : Option Pkt) (a : TierAcc) (x : Desc) (s : State), n.toNat ≠ myNode s → s.engs.colls = [] →
      s.fab.tags = [(tag, ⟨n.toNat, .access a.id, pk⟩)] → s.mem.tier = [a] → (∀ c ∈ s.comps, n.toNat ∉ c.members) →
      descOf a.desc s = some x → x.status < 0x10 → x.phase ≠ .skipped →
      Completes (.nodeDown n none) s (fun t => fget (FAB_ROUTE_UNREACHABLE n.toNat) t = 1 ∧ t.fab.tags = [] ∧ t.mem.tier = []
        ∧ descOf a.desc t = some { x with phase := .finished, status := 0x13 } ∧ RegsBut [FAB_ROUTE_UNREACHABLE n.toNat] s t
        ∧ BytesKept s t))
  ∧ (∀ s : State, (s.fab.inbox.filter (fun x => x.hdr.vc.toNat == 4)).length + s.fab.resend.length ≤ 512 →
      Completes (.managementResend) s (fun t => t.fab.inbox = s.fab.inbox ++ s.fab.resend ∧ t.fab.resend = [] ∧ SameBut [.fab] s t))
  ∧ (∀ (k : Pkt) (s : State), Delivered 0x88 k.hdr s → fget FAB_NODE_MASTER s = 1 →
      let n := slotsNat k.body
      (bitsOf k.hdr.oparg.toNat 12 4 = 0 → s.mgt.events.length < 4096 → Completes (.poolEvent k) s (fun t =>
        (∃ e, t.mgt.events = s.mgt.events ++ [e] ∧ e.code = n % 2 ^ 16 ∧ e.cmpId = bitsOf n 160 16 ∧ e.unit = bitsOf n 176 16
          ∧ e.data = bitsOf n 192 64 ∧ e.seq = s.mgt.evtSeq) ∧ SameBut [.regs, .mgt, .free, .out] s t))
      ∧ (bitsOf k.hdr.oparg.toNat 12 4 = 3 → s.mgt.election.reports = [] → Completes (.poolEvent k) s (fun t =>
        (∃ x, t.mgt.election.reports = [(2 * k.hdr.src.toNat + k.hdr.oparg.toNat % 2, x)] ∧ x.1 = bitsOf k.hdr.oparg.toNat 1 11
          ∧ x.2.1 = n % 2 ^ 64) ∧ SameBut [.mgt] s t)))

/-- R181, R182, R197 and R200, as the host reaches them through R550. -/
def Obligations.SluiceRegisterCommands : Prop :=
  (∀ (src : Src) (k : BitVec 16) (v : BitVec 64) (c : Comp) (s : State) (slot : Nat) (fs : List (Fld × Access)),
      let K := c.sluiceFirst + k.toNat
      let w := wrOf (2 ^ 24 + 256 * K) true (withBit v.toNat 0)
      HostOf src slot c s → k.toNat < c.sluiceCount → K < 65536 → compOfSluice K s = some c →
      regAt (2 ^ 24 + 256 * K) = some fs → fget (SLC_STATUS_STATE K) s = 0 →
      let s1 := (writeFlds w (fs.filter (fun f => f.1.key != (SLC_CTL_ENABLE K).key)) s).1
      Completes (.sluiceEnable src k v) s (fun t =>
        SameBut [.regs, .slc] s t ∧ (∀ j, j ≠ K → sluiceOf j t = sluiceOf j s)
        ∧ (if enableErr K c s1 = 0 then
            fget (SLC_STATUS_STATE K) t = 1 ∧ fget (SLC_CTL_ENABLE K) t = 1 ∧ fget (SLC_STATUS_SQ_HEAD K) t = 0
            ∧ fget (SLC_SQ_TAIL_TAIL K) t = 0 ∧ fget (SLC_STATUS_CQ_TAIL K) t = 0 ∧ fget (SLC_CQ_HEAD_HEAD K) t = 0
            ∧ fget (SLC_STATUS_PHASE K) t = 1 ∧ fget (SLC_IRQ_ARMED K) t = 1 ∧ fget (SLC_STATUS_ENABLE_ERR K) t = 0
            ∧ (sluiceOf K t).accept = acceptWords K s
          else
            fget (SLC_STATUS_STATE K) t = 0 ∧ fget (SLC_CTL_ENABLE K) t = 0
            ∧ fget (SLC_STATUS_ENABLE_ERR K) t = enableErr K c s1
            ∧ (enableErr K c s1 = 1 → fget (SLC_STATUS_FEAT_ERR_STK K) t = 1)
            ∧ sluiceOf K t = sluiceOf K s)))
  ∧ (∀ (src : Src) (k : BitVec 16) (v : BitVec 64) (c : Comp) (s : State) (slot : Fin 64),
      let K := c.sluiceFirst + k.toNat
      HostOf src slot c s → k.toNat < c.sluiceCount → K < 65536 → compOfSluice K s = some c →
      fget (SLC_STATUS_STATE K) s = 1 →
      Completes (.sluiceDisable src k v) s (fun t =>
        SameBut [.regs, .slc] s t ∧ (∀ j, j ≠ K → sluiceOf j t = sluiceOf j s) ∧ fget (SLC_CTL_ENABLE K) t = 0
        ∧ t.slc.descs = s.slc.descs
        ∧ (if s.slc.descs.any (fun d => d.sluice == K) then fget (SLC_STATUS_STATE K) t = 4
           else fget (SLC_STATUS_STATE K) t = 0)))
  ∧ (∀ (src : Src) (k : BitVec 16) (v : BitVec 16) (c : Comp) (s : State) (slot : Nat),
      let K := c.sluiceFirst + k.toNat
      let n := 2 ^ fget (SLC_CTL_SQ_LOG2 K) s
      HostOf src slot c s → k.toNat < c.sluiceCount → K < 65536 →
      Completes (.sqDoorbell src k (v.zeroExtend 64)) s (fun t =>
        SameBut [.regs] s t
        ∧ (if (fget (SLC_STATUS_STATE K) s = 1 ∨ fget (SLC_STATUS_STATE K) s = 2) ∧ v.toNat < n
              ∧ ¬ ringSub v.toNat (fget (SLC_STATUS_SQ_HEAD K) s) n
                    < ringSub (fget (SLC_SQ_TAIL_TAIL K) s) (fget (SLC_STATUS_SQ_HEAD K) s) n
           then fget (SLC_SQ_TAIL_TAIL K) t = v.toNat
           else fget (SLC_SQ_TAIL_TAIL K) t = fget (SLC_SQ_TAIL_TAIL K) s ∧ fget (SLC_STATUS_DB_ERR_STK K) t = 1
             ∧ Counted GLB_IGNORED_WRITE_CNT 1 s t)))
  ∧ (∀ (src : Src) (k : BitVec 16) (v : BitVec 16) (c : Comp) (s : State) (slot : Nat),
      let K := c.sluiceFirst + k.toNat
      let n := 2 ^ fget (SLC_CTL_CQ_LOG2 K) s
      HostOf src slot c s → k.toNat < c.sluiceCount → K < 65536 → (sluiceOf K s).irqPending = false →
      Completes (.cqDoorbell src k (v.zeroExtend 64)) s (fun t =>
        SameBut [.regs] s t
        ∧ (if (fget (SLC_STATUS_STATE K) s = 1 ∨ fget (SLC_STATUS_STATE K) s = 2) ∧ v.toNat < n
              ∧ ¬ ringSub v.toNat (fget (SLC_CQ_HEAD_HEAD K) s) n
                    > ringSub (fget (SLC_STATUS_CQ_TAIL K) s) (fget (SLC_CQ_HEAD_HEAD K) s) n
           then fget (SLC_CQ_HEAD_HEAD K) t = v.toNat ∧ fget (SLC_IRQ_ARMED K) t = 1
           else fget (SLC_CQ_HEAD_HEAD K) t = fget (SLC_CQ_HEAD_HEAD K) s ∧ fget (SLC_STATUS_DB_ERR_STK K) t = 1
             ∧ Counted GLB_IGNORED_WRITE_CNT 1 s t)))
  ∧ (∀ (src : Src) (k : BitVec 16) (v : BitVec 64) (c : Comp) (s : State) (slot : Nat),
      let K := c.sluiceFirst + k.toNat
      let w := wrOf (2 ^ 24 + 256 * K + 0x30) true v.toNat
      HostOf src slot c s → k.toNat < c.sluiceCount → K < 65536 → (sluiceOf K s).irqPending = false →
      mergeFld w (SLC_IRQ_VECTOR K) s = fget (SLC_IRQ_VECTOR K) s → mergeFld w (SLC_IRQ_MODE K) s < 2 →
      Completes (.slcIrqWrite src k v) s (fun t =>
        SameBut [.regs] s t ∧ fget (SLC_IRQ_MODE K) t = mergeFld w (SLC_IRQ_MODE K) s
        ∧ fget (SLC_IRQ_VECTOR K) t = fget (SLC_IRQ_VECTOR K) s))

/-- R179, R184, R185, R192 to R195 and R197. -/
def Obligations.SluicesFetchStartAndSignal : Prop :=
  (∀ s : State, (∃ j ∈ s.slc.sluices.map (·.1), fetchable j s > 0) →
      Completes (.descriptorFetch) s (fun t => ∃ k, fetchable k s > 0
        ∧ (∀ j ∈ s.slc.sluices.map (·.1), fetchable j s > 0 → prioOf j s ≤ prioOf k s)
        ∧ sluiceOf k t = { sluiceOf k s with fetching := some (fetchable k s), aged := false }
        ∧ (∀ j, j ≠ k → sluiceOf j t = sluiceOf j s) ∧ t.slc.descs = s.slc.descs ∧ SameBut [.slc] s t))
  ∧ (∀ (k : BitVec 16) (s : State), fetchable k.toNat s > 0 →
      Completes (.sluiceAging k) s (fun t => sluiceOf k.toNat t = { sluiceOf k.toNat s with aged := true }
        ∧ (∀ j, j ≠ k.toNat → sluiceOf j t = sluiceOf j s) ∧ SameBut [.slc] s t))
  ∧ (∀ (k : BitVec 16) (slots : List (BitVec 512)) (c : Comp) (s : State), compOfSluice k.toNat s = some c →
      (sluiceOf k.toNat s).fetching = some slots.length → (sluiceOf k.toNat s).part = [] → fget (SLC_STATUS_STATE k.toNat) s = 1 →
      fget (SLC_CTL_SQ_LOC k.toNat) s = 1 → (∀ x ∈ slots, bitAt x.toNat 16 = false ∧ bitAt x.toNat 17 = false) →
      Completes (.fetchReturn k slots none) s (fun t =>
        fget (SLC_STATUS_SQ_HEAD k.toNat) t
            = (fget (SLC_STATUS_SQ_HEAD k.toNat) s + slots.length) % 2 ^ fget (SLC_CTL_SQ_LOG2 k.toNat) s % 65536
        ∧ t.slc.nextDesc = s.slc.nextDesc + slots.length ∧ t.slc.descs.length = s.slc.descs.length + slots.length
        ∧ (sluiceOf k.toNat t).fetching = none ∧ fget (SLC_STATUS_STATE k.toNat) t = 1 ∧ BytesKept s t))
  ∧ (∀ (k : BitVec 16) (slots : List (BitVec 512)) (n : Nat) (c : Comp) (s : State), compOfSluice k.toNat s = some c →
      (sluiceOf k.toNat s).fetching = some (n + 1) → (sluiceOf k.toNat s).part = [] → fget (SLC_STATUS_STATE k.toNat) s = 1 →
      fget (SLC_CTL_SQ_LOC k.toNat) s = 1 →
      Completes (.fetchReturn k slots (some 0)) s (fun t =>
        fget (SLC_STATUS_STATE k.toNat) t = 3 ∧ fget (SLC_STATUS_RING_ERR_STK k.toNat) t = 1 ∧ t.slc.descs = s.slc.descs
        ∧ BytesKept s t))
  ∧ (∀ (d : Nat) (x : Desc) (c : Comp) (s : State), descOf d s = some x → x.phase = .queued → x.started = false → x.stale = false →
      listDead x.list s = false → inOrder x s = true → fenceOpen x s = true → migHeld x s = false →
      fget (SLC_STATUS_STATE x.sluice) s ∈ [1, 3, 4] → compOfSluice x.sluice s = some c →
      Completes (.descriptorStart d) s (fun t =>
        descOf d t = some { x with started := true, phase := .running, clamped := c.bwClass < fget (SLC_CTL_BW_CLASS x.sluice) s }
        ∧ (if c.bwClass < fget (SLC_CTL_BW_CLASS x.sluice) s then Counted (SLC_CLASS_CLAMP_CNT x.sluice) 1 s t
           else fget (SLC_CLASS_CLAMP_CNT x.sluice) t = fget (SLC_CLASS_CLAMP_CNT x.sluice) s)
        ∧ RegsBut [SLC_CLASS_CLAMP_CNT x.sluice] s t ∧ SameBut [.regs, .slc] s t))
  ∧ (∀ (k : BitVec 16) (c : Comp) (s : State), fget (SLC_IRQ_MODE k.toNat) s = 2 → fget (SLC_IRQ_TIMER_US k.toNat) s ≠ 0 →
      (sluiceOf k.toNat s).timer = true → (sluiceOf k.toNat s).unsignalled > 0 → fget (SLC_IRQ_ARMED k.toNat) s = 1 →
      compOfSluice k.toNat s = some c → vecOk (fget (SLC_CTL_PORT k.toNat) s) (fget (SLC_IRQ_VECTOR k.toNat) s) c.slot s = true →
      Completes (.irqTimer k) s (fun t =>
        t.out = s.out ++ [.msix (fget (SLC_CTL_PORT k.toNat) s) (fget (SLC_IRQ_VECTOR k.toNat) s)]
        ∧ fget (SLC_IRQ_ARMED k.toNat) t = 0 ∧ (sluiceOf k.toNat t).irqPending = false ∧ (sluiceOf k.toNat t).unsignalled = 0
        ∧ RegsBut [SLC_IRQ_ARMED k.toNat] s t ∧ SameBut [.regs, .slc, .out] s t))

/-- R188 to R190 for a descriptor that is a list of its own. -/
def Obligations.CompletionRecordIsWritten : Prop :=
  ∀ (d : Nat) (x : Desc) (c : Comp) (s : State), descOf d s = some x → x.phase = .finished → x.multi = false → x.consumed = false →
    s.slc.descs.filter (fun y => y.list == x.list) = [x] → workDone x s = true → dQuiet x.raw = false → dIrq x.raw = false →
    compOfSluice x.sluice s = some c → c.software = false → compAt x.slot s = some c → s.engs.colls = [] → x.sluice < 65536 →
    c.slot < 64 →
    fget (SLC_CTL_CQ_LOC x.sluice) s = 1 → fget (PRT_STATUS_LINK_UP (fget (SLC_CTL_PORT x.sluice) s)) s = 1 →
    fget (SLC_IRQ_MODE x.sluice) s = 0 →
    let k := x.sluice
    let status := if x.status = 0 ∧ x.replays > 0 then 1 else x.status
    let tail := fget (SLC_STATUS_CQ_TAIL k) s
    let phase := fget (SLC_STATUS_PHASE k) s
    Completes (.descriptorComplete d) s (fun t =>
      t.out = s.out ++ [.hostWrite (fget (SLC_CTL_PORT k) s) (fget (SLC_CQ_BASE_BASE k) s * 4096 + tail * 32)
        (natLe 32 (recordNat (dSeq x.raw) status phase false x.stall x.bytes x.dropped x.detail
          (fget (SLC_STATUS_SQ_HEAD k) s) (dEng x.raw) 0))]
      ∧ t.slc.descs = s.slc.descs.filter (fun y => y.list != x.list)
      ∧ (if tail + 1 < 2 ^ fget (SLC_CTL_CQ_LOG2 k) s
          then fget (SLC_STATUS_CQ_TAIL k) t = (tail + 1) % 65536 ∧ fget (SLC_STATUS_PHASE k) t = phase
          else fget (SLC_STATUS_CQ_TAIL k) t = 0 ∧ fget (SLC_STATUS_PHASE k) t = (1 - phase) % 2)
      ∧ Counted (SLC_DONE_CNT k) 1 s t ∧ Counted (SLC_FAIL_CNT k) (if status ≥ 0x10 then 1 else 0) s t
      ∧ Counted (SLC_BYTES_CNT k) x.bytes s t ∧ BytesKept s t ∧ t.comps = s.comps)

/-- An invalidation of an ASID runs for the operation of a slot, aborting or destroying as it says, and no translation of
the ASID is left. -/
abbrev InvalBegun (asid slot : Nat) (abort destroy : Bool) (t : State) : Prop :=
  (∀ e ∈ t.xl.tlb, e.asid ≠ asid) ∧ (∀ e ∈ t.xl.wcache, e.asid ≠ asid) ∧ fget (CMP_ASID_CMD_GO slot) t = 1
    ∧ (∃ i ∈ t.xl.invs, i.asid = asid ∧ i.cmd.isSome = true ∧ (abort = true → i.abort = true) ∧ (destroy = true → i.destroy = true))

/-- R202 and the start of R217 and R218. -/
def Obligations.AsidCommands : Prop :=
  ∀ (src : Src) (slot : Fin 64) (a : RegAcc) (c : Comp) (s : State), HostOf src slot c s →
    fget (CMP_ASID_CMD_GO slot) s = 0 → fget (CMP_ASID_ROOT_ROOT slot) s < 2 ^ 44 →
    let asid := a.value.toNat % 65536
    let root := fget (CMP_ASID_ROOT_ROOT slot) s
    (asid / 1024 = slot.val → fget (CTU_ASID_VALID asid) s = 0 → rangeBacked c (root * 4096) 4096 s = true →
      Completes (.asidCreate src slot a) s (fun t =>
        fget (CTU_ASID_VALID asid) t = 1 ∧ fget (CTU_ASID_ROOT asid) t = root ∧ (∀ e ∈ t.xl.tlb, e.asid ≠ asid)
        ∧ fget (CMP_ASID_CMD_GO slot) t = 0 ∧ fget (CMP_ASID_CMD_RESULT slot) t = 0 ∧ SameBut [.regs, .xl] s t))
    ∧ (asid / 1024 = slot.val → fget (CTU_ASID_VALID asid) s = 1 → s.slc.descs.all (fun d => dAsid d.raw != asid) = true →
      Completes (.asidDestroy src slot a) s (fun t => InvalBegun asid slot true true t ∧ SameBut [.regs, .xl] s t)
      ∧ Completes (.invalDrain src slot a) s (fun t => InvalBegun asid slot false false t ∧ SameBut [.regs, .xl] s t)
      ∧ Completes (.invalAbort src slot a) s (fun t => InvalBegun asid slot true false t ∧ SameBut [.regs, .xl] s t)
      ∧ (rangeBacked c (root * 4096) 4096 s = true → Completes (.reroot src slot a) s (fun t =>
          InvalBegun asid slot false false t ∧ fget (CTU_ASID_ROOT asid) t = root ∧ SameBut [.regs, .xl] s t)))
    ∧ (asid / 1024 ≠ slot.val → Completes (.asidCreate src slot a) s (fun t =>
        fget (CMP_ASID_CMD_RESULT slot) t = 1 ∧ fget (CMP_ASID_CMD_GO slot) t = 0
        ∧ fget (CTU_ASID_VALID asid) t = fget (CTU_ASID_VALID asid) s ∧ SameBut [.regs] s t))

/-- R211, R213 and R219. -/
def Obligations.WalksAndInvalidationsEnd : Prop :=
  (∀ (asid : BitVec 16) (va : BitVec 48) (ents : List (BitVec 64)) (c : Comp) (e : TlbEnt) (s s2 : State),
      s.xl.walks.contains (asid.toNat, va.toNat / 4096) = true → compAt (asid.toNat / 1024) s = some c →
      fget (CTU_ASID_VALID asid.toNat) s = 1 → waitsOn asid.toNat (va.toNat / 4096) s = [] →
      let s1 := showCtu { s with xl := { s.xl with walks := s.xl.walks.erase (asid.toNat, va.toNat / 4096) } }
      walkAt c asid.toNat va.toNat (walkStart asid.toNat va.toNat s1).1 (walkStart asid.toNat va.toNat s1).2 ents s1 = (.leaf e, s2) →
      Completes (.walkDone asid va ents) s (fun t =>
        e ∈ t.xl.tlb ∧ t.xl.walks = s.xl.walks.erase (asid.toNat, va.toNat / 4096) ∧ Counted (CTU_EVENT_CNT 2) 1 s t
        ∧ SameBut [.regs, .xl] s t))
  ∧ (∀ (asid : BitVec 16) (i : Inv) (s : State), s.xl.invs.find? (fun x => x.asid == asid.toNat) = some i →
      (∀ id ∈ i.waitFor, ∀ a ∈ s.mem.tier, a.id ≠ id) → (∀ sl, i.cmd = some sl → sl < 64) →
      Completes (.invalComplete asid) s (fun t =>
        (∀ x ∈ t.xl.invs, x.asid ≠ asid.toNat)
        ∧ Counted (CMP_XLAT_EVENT_CNT (asid.toNat / 1024) 1) 1 s t ∧ Counted (CTU_EVENT_CNT 3) 1 s t
        ∧ fget (CTU_ASID_VALID asid.toNat) t = (if i.destroy then 0 else fget (CTU_ASID_VALID asid.toNat) s)
        ∧ (∀ sl, i.cmd = some sl → fget (CMP_ASID_CMD_GO sl) t = 0 ∧ fget (CMP_ASID_CMD_RESULT sl) t = 0)
        ∧ SameBut [.regs, .xl] s t))
  ∧ (∀ (d ns : Nat) (x : Desc) (s : State), descOf d s = some x → x.phase = .noRoom → x.sluice < 65536 → ns < 2 ^ 32 →
      Completes (.xstoreRoom d ns) s (fun t => Counted (CTU_EVENT_CNT 4) ns s t ∧ BytesKept s t ∧ t.comps = s.comps ∧ t.out = s.out))

/-- R226, R228 and R229 for a piece and its context, R246 for the commit, R456 for the replay. -/
def Obligations.PiecesOnPans : Prop :=
  (∀ (d : Nat) (pan : BitVec 12) (lines : List Nat) (accs : List Tier) (x : Desc) (s : State),
      let q := pan.toNat
      let id := s.pan.next + 1
      let p : Piece := { id, desc := d, pan := q, on := q, waiting := true, lines, accs }
      descOf d s = some x → x.phase = .running → (∀ y ∈ s.pan.pieces, y.id ≠ id) → adoptedFor q s = none →
      fget (TIL_ADOPT_SELFTEST (panTile q)) s = 0 → kget? s.pan.subst q = none → fget (TIL_STATE_POWER (panTile q)) s = 2 →
      hasRoom q p false s = true →
      Completes (.pieceStart d pan lines accs) s (fun t =>
        t.pan = { s.pan with next := id,
                             pieces := s.pan.pieces ++ [{ p with waiting := false, parked := !accs.isEmpty, accs := accs.drop 8 }] }
        ∧ t.mem.tier.map (fun a => (a.tier, a.desc, a.piece)) = s.mem.tier.map (fun a => (a.tier, a.desc, a.piece)) ++ (accs.take 8).map (fun a => (a, d, id))
        ∧ RegsBut adoptingFlds s t ∧ BytesKept s t ∧ SameBut [.pan, .regs, .mem, .coh] s t))
  ∧ (∀ (id : Nat) (p : Piece) (s : State), pieceOf id s = some p → p.parked = true → (∀ a ∈ s.mem.tier, a.piece ≠ id) →
      Completes (.threadReady id) s (fun t => pieceOf id t = some { p with accs := p.accs.drop 8, parked := !p.accs.isEmpty }
        ∧ (∀ i, i ≠ id → pieceOf i t = pieceOf i s)
        ∧ t.mem.tier.map (fun a => (a.tier, a.desc, a.piece)) = s.mem.tier.map (fun a => (a.tier, a.desc, a.piece)) ++ (p.accs.take 8).map (fun a => (a, p.desc, id))
        ∧ BytesKept s t ∧ SameBut [.pan, .mem, .coh] s t))
  ∧ (∀ (id : Nat) (p : Piece) (x : Desc) (s : State), pieceOf id s = some p → p.waiting = false → p.parked = false → p.struck = false →
      descOf p.desc s = some x → isSoftware x.slot s = false → NoneWaits s →
      Completes (.blockCommit id false) s (fun t => pieceOf id t = some { p with lines := [] }
        ∧ (∀ i, i ≠ id → pieceOf i t = pieceOf i s) ∧ SameBut [.pan] s t)
      ∧ Completes (.blockCommit id true) s (fun t => t.pan = { s.pan with pieces := s.pan.pieces.filter (fun y => y.id != id) }
        ∧ RegsBut adoptingFlds s t ∧ SameBut [.pan, .regs] s t))
  ∧ (∀ (d unit : Nat) (x : Desc) (s : State), kmem s.pan.struck (d * 2 ^ 32 + unit) = true → descOf d s = some x →
      (∀ e ∈ s.engs.colls, e.2.desc ≠ some d) →
      Completes (.replay d unit) s (fun t => Counted (RAS_ERR_CNT 6) 1 s t ∧ RegsBut [RAS_ERR_CNT 6] s t
        ∧ descOf d t = some { x with replays := x.replays + 1 } ∧ kmem t.pan.struck (d * 2 ^ 32 + unit) = false
        ∧ (∀ k, k ≠ d * 2 ^ 32 + unit → kmem t.pan.struck k = kmem s.pan.struck k)
        ∧ t.pan.pieces = s.pan.pieces.map (fun p => if p.desc = d then { p with struck := false } else p)
        ∧ SameBut [.regs, .slc, .pan] s t))

/-- R231, R232, R455 to R461 and R21, for the pan that a logical pan number names (R19). -/
def Obligations.PansThatFail : Prop :=
  (∀ (d unit : Nat) (pan : BitVec 12) (temp : BitVec 8) (x : Desc) (s : State),
      let p := pan.toNat
      let key := d * 2 ^ 32 + unit
      let v := kgetD s.pan.vstep (physKey p s) 0
      let c := kgetD s.pan.drop (panTile p) 0
      descOf d s = some x → x.phase ≠ .skipped → x.started = true → workDone x s = false → NoneWaits s →
      (kgetD s.pan.errors key 0 = 0 → kgetD s.pan.strikes p 0 = 0 → kget? s.pan.subst p = none → v < 3 → c < 8 →
        Completes (.transientError d unit .vector pan temp) s (fun t =>
          Counted (RAS_ERR_CNT 4) 1 s t ∧ Counted (RAS_ERR_CNT 8) 1 s t ∧ kgetD t.pan.errors key 0 = 1 ∧ kmem t.pan.struck key = true
          ∧ kgetD t.pan.strikes p 0 = 1 ∧ Logged 2 p (4 + temp.toNat * 2 ^ 8 + v * 2 ^ 16 + c * 2 ^ 24) s t
          ∧ (if fget RAS_CTL_SUSPECT_POLICY s = 1 then kgetD t.pan.drop (panTile p) 0 = c + 1 ∧ kgetD t.pan.vstep (physKey p s) 0 = v
             else kgetD t.pan.vstep (physKey p s) 0 = v + 1 ∧ kgetD t.pan.drop (panTile p) 0 = c)
          ∧ descOf d t = some x ∧ BytesKept s t))
      ∧ (kgetD s.pan.errors key 0 = 2 → Completes (.transientError d unit .noc pan temp) s (fun t =>
          Counted (RAS_ERR_CNT 5) 1 s t ∧ Counted (RAS_ERR_CNT 7) 1 s t
          ∧ descOf d t = some { x with phase := .finished, status := 0x30 } ∧ (∀ y ∈ t.pan.pieces, y.desc ≠ d)
          ∧ t.pan.strikes = s.pan.strikes ∧ BytesKept s t ∧ SameBut [.regs, .slc, .pan] s t)))
  ∧ (∀ (pan : BitVec 12) (pos : Nat) (s : State), NoneWaits s →
      let p := pan.toNat
      let u := panTile p
      kget? s.pan.subst p = some pos → (pos = 128 ∨ pos = 129) →
      Completes (.spareSwitched pan true) s (fun t => fget (spVault u (pos - 128)) t = panVault p ∧ kget? t.pan.subst p = none
        ∧ fget (TIL_PAN_SPARE_SUBST_STK u) t = 1 ∧ Counted (TIL_SUBST_CNT u) 1 s t ∧ Logged 3 p pos s t ∧ Raised 0x0040 0 p s t ∧ BytesKept s t)
      ∧ (pos = 128 → fget (spVault u 1) s = 0xFF → fget (spBad u 1) s = 0 → (∀ e ∈ s.pan.subst, panTile e.1 = u → e.2 ≠ 129) →
        (∀ y ∈ s.pan.pieces, y.on ≠ p) →
        Completes (.spareSwitched pan false) s (fun t => fget (spBad u 0) t = 1 ∧ kmem t.pan.failed (u * 130 + 128) = true
          ∧ kget? t.pan.subst p = some 129 ∧ BytesKept s t)))
  ∧ (∀ (pan : BitVec 12) (i : Nat) (s : State),
      let p := pan.toNat
      (∃ y ∈ s.pan.pieces, y.on = p ∧ y.waiting = false) → (∀ y ∈ s.pan.pieces, y.on = p → y.lines = []) →
      kget? s.pan.subst p = none → adoptedFor p s = none → physPan p s = panVault p → freeSpare (panTile p) s = some i →
      Completes (.panStallTimeout pan) s (fun t => kmem t.pan.failed (panTile p * 130 + panVault p) = true
        ∧ kget? t.pan.subst p = some (128 + i) ∧ (∀ y ∈ t.pan.pieces, y.on = p → y.waiting = true) ∧ BytesKept s t))
  ∧ (∀ (pan : BitVec 12) (s : State), Completes (.strikeExpiry pan) s (fun t =>
      kgetD t.pan.strikes pan.toNat 0 = kgetD s.pan.strikes pan.toNat 0 - 1
      ∧ (∀ q, q ≠ pan.toNat → kgetD t.pan.strikes q 0 = kgetD s.pan.strikes q 0)
      ∧ RegsBut panInfoFlds s t ∧ SameBut [.regs, .pan] s t))
  ∧ (∀ (src : Src) (v : BitVec 64) (s : State), isManagement src = true → v.toNat < 2 ^ 13 → fget RAS_PAN_SEL_PAN_CLEAR s = 0 →
      let p := v.toNat % 2 ^ 12
      Completes (.panClear src v) s (fun t => fget RAS_PAN_SEL_PAN t = p ∧ kgetD t.pan.strikes p 0 = 0
        ∧ kgetD t.pan.vstep (physKey p s) 0 = 0 ∧ kgetD t.pan.drop (panTile p) 0 = 0
        ∧ [RAS_PAN_INFO_VSTEP, RAS_PAN_INFO_STRIKES, RAS_PAN_INFO_TILE_DROP, RAS_PAN_INFO_SUSPECT].map (fun f => fget f t) = [0, 0, 0, 0]
        ∧ SameBut [.regs, .pan, .lr] s t))
  ∧ (∀ (t : Fin 32) (s : State), fget (TIL_PAN_SPARE_RETIRED t) s = 0 → tileInTest t s = false → tileInTest (t.val ^^^ 1) s = false →
      domainOn 36 s = true → Completes (.selftestStart t) s (fun u => fget (TIL_ADOPT_SELFTEST t) u = 1
        ∧ (∀ y ∈ u.pan.pieces, panTile y.on = t.val → y.waiting = true) ∧ BytesKept s u))
  ∧ (∀ (t : Fin 32) (s : State), fget (TIL_ADOPT_SELFTEST t) s = 1 → NoneWaits s →
      Completes (.selftestEnd t []) s (fun u => fget (TIL_ADOPT_SELFTEST t) u = 0 ∧ RegsBut (TIL_ADOPT_SELFTEST t :: panInfoFlds) s u
        ∧ SameBut [.regs] s u)
      ∧ (∀ (v : Fin 128) (i : Nat), let p := t.val * 128 + v.val
        s.pan.pieces = [] → kget? s.pan.subst p = none → adoptedFor p s = none → physPan p s = v.val → freeSpare t s = some i →
        Completes (.selftestEnd t [v]) s (fun u => fget (TIL_ADOPT_SELFTEST t) u = 0 ∧ kmem u.pan.failed (t.val * 130 + v.val) = true
          ∧ kget? u.pan.subst p = some (128 + i) ∧ BytesKept s u)))

/-- R258, R275, R279, R281 to R284 and R295 on one Slosin; R286 for the start of a collective. -/
def Obligations.ReduceOnOneSlosin : Prop :=
  ∀ (d : Nat) (inp : EngIn) (x : Desc) (c : Comp) (s : State), NoErrors inp →
    let r := x.raw
    (∀ p q0 q1, Running d 2 1 x c s → rdN r = 1 → rdCount r = 2 → rdIn r = 1 → rdOut r = 1 → rdFast r = false → rdInclude r = false →
        ReadOk x c (rdSrc r) 4 q0 s → ReadOk x c (rdSrc r + rdStride r) 4 q1 s → WriteOk x c (rdResult r) 4 p s →
        let v0 := leNat (bytesAt (atVa q0 (rdSrc r)) 4 s)
        let v1 := leNat (bytesAt (atVa q1 (rdSrc r + rdStride r)) 4 s)
        let sum := accTerm (readElem 1 v1).1 false (accTerm (readElem 1 v0).1 false {})
        Completes (.accumulate d inp) s (fun t => Finished d 0 12 t
          ∧ BytesSet (atVa p (rdResult r)) (natLe 4 (accDeliver 1 (rdRnd r) (draw (rdSeed r) (rdStep r) 0 0x40) sum).1) s t
          ∧ isBittern (p / 64) t = isBittern (p / 64) s ∧ t.comps = s.comps ∧ t.out = s.out))
    ∧ (∀ p b, Running d 2 5 x c s → rdN r = 1 → rdSel r = 0 → x.recipe = [b] → (streamE b 0).mode = 3 → (streamE b 0).fmt = 1 →
        (streamE b 0).layout = 0 → (∀ k ∈ [1, 2, 3], (streamE b k).mode = 0) → recipeSums b = [] →
        ReadOk x c (rdAux r) 4 p s → WriteOk x c (rdAux r) 4 p s →
        let v := leNat (bytesAt (atVa p (rdAux r)) 4 s)
        Completes (.run d inp) s (fun t => Finished d 0 4 t
          ∧ BytesSet (atVa p (rdAux r)) (natLe 4 (((runElem b { redElemIn r b with index := 0 } [v, 0, 0, 0]).1[0]?).join.getD 0)) s t
          ∧ t.comps = s.comps ∧ t.out = s.out))
    ∧ (∀ m n me q, x.slot = c.slot → redOthers r c s = [(m, n)] → memberIndex c (myNode s) = some me →
        collAt c.slot (rdColl r) s = none → s.engs.colls.length < 4096 →
        let join := mkPkt 0x62 n c.cmpId 0 0 (2 ^ 7 + rdColl r * 2 ^ 24 + me * 2 ^ 40 + redSig r * 2 ^ 52) [] false 2 s
        PathReady join q s →
        let joined := fun t : State => SentOn q join s t ∧ (∃ y, descOf d t = some y ∧ y.phase = .waiting ∧ y.worked = true)
          ∧ collAt c.slot (rdColl r) t = some { slot := c.slot, collId := rdColl r, desc := some d, sig := redSig r } ∧ BytesKept s t
        (Running d 2 2 x c s → Completes (.reduceScatter d inp) s joined)
        ∧ (Running d 2 3 x c s → Completes (.allreduce d inp) s joined)
        ∧ (Running d 2 4 x c s → Completes (.mergeApply d inp) s joined))

/-- R286 to R289, R291, R292, R297 and R299. -/
def Obligations.PacketsOfACollective : Prop :=
  ∀ (k : Pkt) (c : Comp) (s : State), Delivered 0x62 k.hdr s → compById k.hdr.cmpId.toNat s = some c → compAt c.slot s = some c →
    c.state ≠ .failed →
    let o := k.hdr.oparg.toNat
    let id := paColl k.hdr
    let src := paSrc k.hdr
    let sig := bitsOf o 52 12
    (bitAt o 7 = true → bitsOf o 0 6 = 0 → collAt c.slot id s = none → s.engs.colls.length < 4096 →
      Completes (.collJoin k) s (fun t => collAt c.slot id t = some { slot := c.slot, collId := id, joins := [(src, sig)] }
        ∧ SameBut [.regs, .engs] s t))
    ∧ (∀ (x : Coll) (d n : Nat) (y : Desc), collAt c.slot id s = some x → x.slot = c.slot → x.collId = id → x.desc = some d →
        descOf d s = some y → y.phase = .waiting → compOfSluice y.sluice s = some c →
        (bitAt o 7 = true → bitsOf o 0 6 = 0 → x.formed = false → x.aborted = none → x.joins = [] → x.sig = sig → x.arms = [] →
          x.next = 0 → x.parts = [] → x.doneN = 0 → x.sentN = 0 → redOthers y.raw c s = [(src, n)] → 1 ≤ rdN y.raw → rdN y.raw < 256 →
          homedOn y.raw c y.runs (myNode s) 0 = [] →
          Completes (.collJoin k) s (fun t =>
            collAt c.slot id t = some { x with joins := [(src, sig)], formed := true, next := 1 } ∧ SameBut [.regs, .engs] s t))
        ∧ (∀ q qo w, bitAt o 7 = true → x.formed = true → dOpc y.raw = 2 → rdN y.raw = 1 → rdFast y.raw = false → rdIn y.raw = 1 →
          rdCount y.raw = 1 → rdColl y.raw = id → k.hdr.pa = 0 → c.members[src]? = some n → homedOn y.raw c y.runs n 0 = [0] →
          ReadOk y c (rdSrc y.raw) 4 q s → x.parts = [] → x.arms = [] → x.sent = [] → x.sentN = 0 → x.doneN = 0 → x.replays = 0 →
          y.consumed = false →
          accWin (accTerm (readElem 1 (leNat (bytesAt (atVa q (rdSrc y.raw)) 4 s))).1 false {}) = some w →
          let me := (memberIndex c (myNode s)).getD 0
          let part := mkPkt 0x62 n c.cmpId 0 0 (id * 2 ^ 24 + me * 2 ^ 40 + paEpoch k.hdr * 2 ^ 50) [BitVec.ofNat 128 w] false 3 s
          PathReady part qo s →
          let answered := fun t : State => SentOn qo part s t ∧ collAt c.slot id t = none ∧ BytesKept s t
            ∧ ∃ z, descOf d t = some z ∧ z.phase = .finished ∧ z.status = 0
          (bitsOf o 0 6 = 1 → Completes (.collArm k) s answered) ∧ (bitsOf o 0 6 = 2 → Completes (.rearm k) s answered))
        ∧ (∀ (part : RedPart) (a a0 : Accum) (w : BitVec 128) (p : Nat), bitsOf o 0 9 = 0 → k.body = [w] → readWin w.toNat = some a →
          x.formed = true → x.parts = [part] → part.window = 0 → part.idx = [0] → part.epoch = paEpoch k.hdr → part.got = [] →
          part.accs = [a0] → (accMerge a0 a).bittern = false → redOthers y.raw c s = [(src, n)] → k.hdr.pa = 0 → dOpc y.raw = 2 →
          rdN y.raw = 1 → rdFast y.raw = false → rdInclude y.raw = false → rdOut y.raw = 1 → x.next = 1 → x.arms = [] → x.replays = 0 →
          y.consumed = false → WriteOk y c (rdResult y.raw) 4 p s →
          Completes (.partialAcc k) s (fun t => collAt c.slot id t = none ∧ Counted (ENG_RED_EVENT_CNT 1) 1 s t
            ∧ BytesSet (atVa p (rdResult y.raw)) (natLe 4 (accDeliver 1 (rdRnd y.raw) (draw (rdSeed y.raw) (rdStep y.raw) 0 0x40)
                (accMerge a0 a)).1) s t
            ∧ ∃ z, descOf d t = some z ∧ z.phase = .finished ∧ z.status = 0 ∧ z.bytes = y.bytes + 4))
        ∧ (∀ a wr i p, bitAt o 7 = true → bitsOf o 0 6 = 3 → x.formed = true → dOpc y.raw = 3 → rdN y.raw = 1 → rdOut y.raw = 1 →
          k.hdr.pa = 0 → c.members[src]? = some n → homedOn y.raw c y.runs n 0 = [0] → runAt y.runs (rdResult y.raw) = some (.pool a, wr) →
          homeOf c (a / 64 * 64) s = .member i n → fget (FAB_ROUTE_UNREACHABLE n) s = 0 → rdResult y.raw % 64 ≤ 60 →
          WriteOk y c (rdAux y.raw) 4 p s → x.parts = [] → x.arms = [] → x.sentN = 1 → x.doneN = 0 → x.copied = [] → x.copiedN = 0 →
          x.replays = 0 → y.consumed = false →
          Completes (.collDone k) s (fun t => collAt c.slot id t = none ∧ (∃ v, BytesSet (atVa p (rdAux y.raw)) (natLe 4 v) s t)
            ∧ ∃ z, descOf d t = some z ∧ z.phase = .finished ∧ z.status = 0))
        ∧ (bitAt o 7 = true → bitsOf o 0 6 = 4 → Completes (.collAbort k) s (fun t => collAt c.slot id t = none ∧ BytesKept s t
            ∧ ∃ z, descOf d t = some z ∧ z.phase = .finished
              ∧ (if fget (SLC_STATUS_STATE y.sluice) s = 2 then z.status = 0x10
                 else z.status = 0x13 ∧ z.detail = bitsOf o 8 8 + src * 2 ^ 8)))
        ∧ (s.engs.colls = [(collKey c.slot id, x)] → Completes (.collectiveTimeout d) s (fun t => t.engs.colls = []
            ∧ fget ENG_RED_STATUS_TIMEOUT_STK t = 1 ∧ Counted (ENG_RED_EVENT_CNT 4) 1 s t ∧ BytesKept s t
            ∧ ∃ z, descOf d t = some z ∧ z.phase = .finished ∧ z.status = 0x13 ∧ z.detail % 2 ^ 8 = 1)))

/-- R303, R305, R306, R308, R309 and R313 to R317. -/
def Obligations.GatherEngine : Prop :=
  ∀ (d : Nat) (inp : EngIn) (x : Desc) (c : Comp) (pi po pt : Nat) (s : State), NoErrors inp →
    let r := x.raw
    let i := leNat (bytesAt (atVa pi (gaIdxVa r)) (gaWidth r) s)
    let row := gaTable r false + i * gaStride r false
    let e := (readElem 1 (leNat (bytesAt (atVa pt row) 4 s))).1
    gaWeighted r = false → gaKind r = 0 → gaTbl r = 1 → gaOut r = 1 → gaD r = 1 → gaN r = 1 →
    ReadOk x c (gaIdxVa r) (gaWidth r) pi s →
    (Running d 3 1 x c s → WriteOk x c (gaOutVa r) 4 po s →
      (i < gaRows r false → i ≠ 2 ^ (8 * gaWidth r) - 1 → ReadOk x c row 4 pt s → Completes (.gather d inp) s (fun t => Finished d 0 64 t
        ∧ BytesSet (atVa po (gaOutVa r)) (natLe 4 (accDeliver 1 (gaRnd r) (gaDraw r 0 0) (accTerm e false {})).1) s t
        ∧ Counted (ENG_GTH_EVENT_CNT 1) 1 s t))
      ∧ (i = 2 ^ (8 * gaWidth r) - 1 → gaPadQuiet r = false → Completes (.gather d inp) s (fun t => Finished d 2 0 t
        ∧ BytesSet (atVa po (gaOutVa r)) [0, 0, 0, 0] s t ∧ Counted (ENG_GTH_DROP_CNT 1) 1 s t
        ∧ ∃ y, descOf d t = some y ∧ y.dropped = 1)))
    ∧ (∀ p0 p1, Running d 3 2 x c s → WriteOk x c (gaOutVa r) 4 po s → gaBags r = 1 → gaOp r = 0 →
        ReadOk x c (gaOffVa r) (gaWidth r) p0 s → ReadOk x c (gaOffVa r + gaWidth r) (gaWidth r) p1 s →
        let lo := leNat (bytesAt (atVa p0 (gaOffVa r)) (gaWidth r) s)
        let hi := leNat (bytesAt (atVa p1 (gaOffVa r + gaWidth r)) (gaWidth r) s)
        (lo = 0 → hi = 1 → i < gaRows r false → i ≠ 2 ^ (8 * gaWidth r) - 1 → ReadOk x c row 4 pt s →
          Completes (.pool d inp) s (fun t => Finished d 0 64 t
            ∧ BytesSet (atVa po (gaOutVa r)) (natLe 4 (accDeliver 1 (gaRnd r) (gaDraw r 0 0) (accTerm e false {})).1) s t))
        ∧ (lo = 0 → hi = 0 → Completes (.pool d inp) s (fun t => Finished d 0 0 t
            ∧ BytesSet (atVa po (gaOutVa r)) [0, 0, 0, 0] s t ∧ Counted (ENG_GTH_EVENT_CNT 5) 1 s t)))
    ∧ (Running d 3 3 x c s → gaOp r = 0 → i < gaRows r false → i < 2 ^ 32 - 1 → ReadOk x c (gaOutVa r) 4 po s →
        ReadOk x c row 4 pt s → WriteOk x c row 4 pt s →
        let g := (readElem 1 (leNat (bytesAt (atVa po (gaOutVa r)) 4 s))).1
        Completes (.scatterMerge d inp) s (fun t => Finished d 0 4 t
          ∧ BytesSet (atVa pt row) (natLe 4 (accDeliver 1 (gaRnd r) (draw (gaSeed r) (gaStep r) i 0x51)
              (accTerm e false (accTerm g false {}))).1) s t
          ∧ Counted (ENG_GTH_EVENT_CNT 2) 1 s t ∧ fget ENG_GTH_HOTROW_CONTRIB t = 1
          ∧ fget ENG_GTH_HOTROW_CMP_ID t = c.cmpId % 2 ^ ENG_GTH_HOTROW_CMP_ID.width))

/-- R330 to R344 and R346. -/
def Obligations.RakeEngine : Prop :=
  (∀ (d : Nat) (inp : EngIn) (x : Desc) (c : Comp) (pq pv pt ps pi pb pr po : Nat) (s : State), NoErrors inp → Running d 4 1 x c s →
      let r := x.raw
      let ent := bytesAt (atVa pt (raTblVa r)) 32 s
      let f := fun (o n : Nat) => leNat ((ent.drop o).take n)
      raCode r = 0 → raBudget r = false → raCentroid r = false → raAllBins r = true → raFilter r = false → raFull r = false →
      raBins r = 1 → raN r = 1 → raK r = 1 → 1 ≤ raRerank r → 1 ≤ raD r →
      ReadOk x c (raSrcVa r) 32 pq s → ReadOk x c (raSrcVa r + 64) (4 * raD r) pv s → ReadOk x c (raTblVa r) 32 pt s →
      badBin r ⟨f 0 8, f 8 8, f 16 8, f 24 4, 1, false⟩ = false → f 28 4 = 1 →
      ReadOk x c (raArena r + f 0 8) 32 ps s → ReadOk x c (raArena r + f 8 8) 8 pi s → ReadOk x c (raArena r + f 16 8) 1 pb s →
      let id := leNat (bytesAt (atVa pi (raArena r + f 8 8)) 8 s)
      let row := raVecVa r + id * raVecStride r
      bitAt (leNat (bytesAt (atVa pb (raArena r + f 16 8)) 1 s)) 0 = false → id < raVecRows r →
      ReadOk x c row (raRowBytes r) pr s → WriteOk x c (raResVa r) 32 po s →
      let plain := fun (p va n : Nat) => (bytesAt (atVa p va) n s).map (fun b => (b, false))
      let q := (sliceElems 32 (raD r) 0 (plain pv (raSrcVa r + 64) (4 * raD r))).map (·.1)
      let v := (sliceElems (fmtBits (raFmt r)) (raD r) 0 (plain pr row (raRowBytes r))).map (fun e => (readElem (raFmt r) e.1).1)
      let ham := popcount (leNat (bytesAt (atVa pq (raSrcVa r)) 32 s) ^^^ leNat (bytesAt (atVa ps (raArena r + f 0 8)) 32 s))
      Completes (.search d inp) s (fun t => Finished d 0 (40 + raRowBytes r) t
        ∧ BytesSet (atVa po (raResVa r)) (natLe 4 1 ++ natLe 2 0 ++ natLe 2 1 ++ natLe 8 1
            ++ natLe 8 id ++ natLe 4 (score (raMetric r) q v).1 ++ natLe 2 ham ++ natLe 2 0) s t))
  ∧ (∀ (d : Nat) (x : Desc) (s : State), descOf d s = some x →
      Completes (.deadlineExpiry d) s (fun t => SameBut [.slc] s t ∧ (∀ e, e ≠ d → descOf e t = descOf e s)
        ∧ descOf d t = some (if x.phase = .running ∧ x.worked = false ∧ dEng x.raw = 4 ∧ dOpc x.raw = 1 ∧ raBudget x.raw = true
            then { x with late := true } else x)))
  ∧ (∀ (d : Nat) (inp : EngIn) (x : Desc) (c : Comp) (pt : Nat) (s : State), NoErrors inp →
      let r := x.raw
      let va := raTblVa r + 32 * raBin r
      let ent := bytesAt (atVa pt va) 32 s
      let f := fun (o n : Nat) => leNat ((ent.drop o).take n)
      let n := f 28 4
      ReadOk x c va 32 pt s → badBin r ⟨f 0 8, f 8 8, f 16 8, f 24 4, n, false⟩ = false → raN r = 1 →
      (∀ p0 p1 p2 p3 p4, Running d 4 2 x c s → raCode r = 0 → n < f 24 4 → ReadOk x c (raSrcVa r) 32 p0 s →
        ReadOk x c (raSrcVa r + 256) 8 p1 s → WriteOk x c (raArena r + f 0 8 + n * 32) 32 p2 s →
        WriteOk x c (raArena r + f 8 8 + 8 * n) 8 p3 s → ReadOk x c (raArena r + f 16 8 + n / 8) 1 p4 s →
        WriteOk x c (raArena r + f 16 8 + n / 8) 1 p4 s → WriteOk x c (va + 28) 4 pt s →
        [p2 / 64, p3 / 64, p4 / 64, pt / 64].Nodup →
        Completes (.rakeAppend d inp) s (fun t => Finished d 0 40 t
          ∧ bytesAt (atVa p2 (raArena r + f 0 8 + n * 32)) 32 t = bytesAt (atVa p0 (raSrcVa r)) 32 s
          ∧ bytesAt (atVa p3 (raArena r + f 8 8 + 8 * n)) 8 t = bytesAt (atVa p1 (raSrcVa r + 256)) 8 s
          ∧ (∀ j < 8, (byteAt (atVa p4 (raArena r + f 16 8 + n / 8)) t).getLsbD j
              = (if j = n % 8 then false else (byteAt (atVa p4 (raArena r + f 16 8 + n / 8)) s).getLsbD j))
          ∧ bytesAt (atVa pt (va + 28)) 4 t = natLe 4 (n + 1)
          ∧ (∀ b, b / 64 ∉ [p2 / 64, p3 / 64, p4 / 64, pt / 64] → byteAt b t = byteAt b s)))
      ∧ (∀ p0, Running d 4 3 x c s → ReadOk x c (raSrcVa r) 4 p0 s →
        let j := leNat (bytesAt (atVa p0 (raSrcVa r)) 4 s)
        (∀ p4, j < n → ReadOk x c (raArena r + f 16 8 + j / 8) 1 p4 s → WriteOk x c (raArena r + f 16 8 + j / 8) 1 p4 s →
          let a := atVa p4 (raArena r + f 16 8 + j / 8)
          Completes (.rakeDelete d inp) s (fun t => Finished d 0 4 t ∧ (byteAt a t).getLsbD (j % 8) = true
            ∧ (∀ i < 8, i ≠ j % 8 → (byteAt a t).getLsbD i = (byteAt a s).getLsbD i) ∧ ∀ b, b ≠ a → byteAt b t = byteAt b s))
        ∧ (n ≤ j → Completes (.rakeDelete d inp) s (fun t => Finished d 2 0 t ∧ Counted (ENG_RAK_DROP_CNT 4) 1 s t ∧ BytesKept s t
          ∧ ∃ y, descOf d t = some y ∧ y.dropped = 1))))

/-- R355 to R357 for where things lie, R360 to R366 for a head. -/
def Obligations.AttendEngine : Prop :=
  ∀ (d : Nat) (inp : EngIn) (x : Desc) (c : Comp) (ps po : Nat) (s : State), NoErrors inp → Running d 5 1 x c s →
    let r := x.raw
    let ent := bytesAt (atVa ps (atSeqVa r)) 16 s
    let f := fun (o : Nat) => leNat ((ent.drop o).take 4)
    let w := fmtBits (atOut r)
    atSeqs r = 1 → atHq r = 1 → atHkv r = 1 → atLse r = false → atFast r = false → isMx (atKv r) = false → 16 ≤ atBt r →
    1 ≤ atDh r → atRb r ≤ 64 → 0 < w → ReadOk x c (atSeqVa r) 16 ps s → f 12 = 0 → f 0 + (f 8 + atBt r - 1) / atBt r ≤ atBtabLen r →
    WriteOk x c (atOutVa r) ((atDh r * w + 7) / 8) po s →
    let row := fun (l : List Nat) => (packElems w (l.map (fun v => (v, false)))).map (·.1)
    (f 8 ≤ f 4 → Completes (.attend d inp) s (fun t => Finished d 0 0 t
        ∧ BytesSet (atVa po (atOutVa r)) (row (List.replicate (atDh r) 0)) s t ∧ Counted (ENG_ATT_EVENT_CNT 4) 1 s t))
    ∧ (∀ pb pk pv pq, f 4 = 0 → f 8 = 1 → ReadOk x c (atBtabVa r + 4 * f 0) 4 pb s →
        let n := leNat (bytesAt (atVa pb (atBtabVa r + 4 * f 0)) 4 s)
        n < atBlocks r → 0 < atRb r → ReadOk x c (atChunk r n 0 0 0) (atRb r) pk s → ReadOk x c (atChunk r n 1 0 0) (atRb r) pv s →
        ReadOk x c (atQueryVa r) (4 * atDh r) pq s →
        let elems := fun (p va k : Nat) => (sliceElems (fmtBits (atKv r)) (atDh r) 0 ((bytesAt (atVa p va) k s).map (fun b => (b, false)))).map
          (fun e => (readElem (atKv r) e.1).1)
        let q := (sliceElems 32 (atDh r) 0 ((bytesAt (atVa pq (atQueryVa r)) (4 * atDh r) s).map (fun b => (b, false)))).map (·.1)
        let sc := (atScore (atScale r) q (elems pk (atChunk r n 0 0 0) (atRb r))).1
        Completes (.attend d inp) s (fun t => Finished d 0 (2 * atRb r) t
          ∧ Counted (ENG_ATT_EVENT_CNT 2) 1 s t
          ∧ (if notFinite sc then BytesSet (atVa po (atOutVa r)) (row (List.replicate (atDh r) (atNan r))) s t
                ∧ fget ENG_ATT_STATUS_NONFINITE_STK t = 1
             else BytesSet (atVa po (atOutVa r)) (row (headExact r 0 [(sc, elems pv (atChunk r n 1 0 0) (atRb r))]).out) s t)))

/-- R374, R375, R377 and R378, with R76, R77 and R79 for what advice and heat are. -/
def Obligations.MoveEngine : Prop :=
  ∀ (d : Nat) (inp : EngIn) (x : Desc) (c : Comp) (s : State), NoErrors inp →
    let dst := mvDst x.raw
    let n := mvLen x.raw
    (∀ p, Running d 0 1 x c s → WriteOk x c dst n p s → Completes (.fill d inp) s (fun t => Finished d 0 n t
        ∧ BytesSet (atVa p dst) ((List.range n).map (fun i => BitVec.ofNat 8 (bitsOf (mvAux x.raw) (8 * ((dst + i) % 8)) 8))) s t
        ∧ isBittern (p / 64) t = (isBittern (p / 64) s && n != 64) ∧ t.comps = s.comps ∧ t.out = s.out))
    ∧ (∀ p q wr, Running d 0 2 x c s → OnLine x c (mvSrc x.raw) wr q s → mvSrc x.raw % 64 + n ≤ 64 → WriteOk x c dst n p s →
        Completes (.copy d inp) s (fun t => Finished d 0 n t ∧ BytesSet (atVa p dst) (bytesAt (atVa q (mvSrc x.raw)) n s) s t
          ∧ isBittern (p / 64) t = (isBittern (q / 64) s || (isBittern (p / 64) s && n != 64)) ∧ t.comps = s.comps ∧ t.out = s.out))
    ∧ (∀ p, Running d 0 6 x c s → n / frameBytes = 1 → WriteOk x c dst 8 p s → Completes (.heatSnapshot d inp) s (fun t =>
        (∃ b, Finished d 0 b t) ∧ BytesSet (atVa p dst) (natLe 8 (heatRecord c (mvAux x.raw) s)) s t ∧ t.comps = s.comps ∧ t.out = s.out))
    ∧ (∀ a wr i l e, Running d 0 5 x c s → n = 4096 → mvSrc x.raw % 4096 = 0 →
        leafAt c (dAsid x.raw) s (mvSrc x.raw) = some e → e.va = mvSrc x.raw → e.size = 4096 →
        runAt x.runs (mvSrc x.raw) = some (.pool a, wr) → a % 4096 = 0 → splitPa c a = some (i, l) → c.members[i]? = some (myNode s) →
        (mvArg x.raw ≠ 3 → mvArg x.raw ≠ 4 → Completes (.advise d inp) s (fun t => (∃ b, Finished d 0 b t)
          ∧ kgetD t.mem.advice (heatKey c.slot l) 0 = mvArg x.raw
          ∧ (∀ k, k ≠ heatKey c.slot l → kgetD t.mem.advice k 0 = kgetD s.mem.advice k 0) ∧ BytesKept s t))
        ∧ (∀ p, mvArg x.raw = 4 → LineAt c.slot (a / 64) c p s → s.coh.dir = [] → Completes (.advise d inp) s (fun t => (∃ b, Finished d 0 b t)
          ∧ isWritten (p / 4096) t = false
          ∧ ∀ b, byteAt b t = if b / 4096 = p / 4096 then 0 else byteAt b s)))

/-- R379 to R383, and R111 for bittern. -/
def Obligations.CheckEngine : Prop :=
  ∀ (d : Nat) (inp : EngIn) (x : Desc) (c : Comp) (p q : Nat) (wr : Bool) (s : State), NoErrors inp →
    let n := mvLen x.raw
    let res := mvAux x.raw
    let bs := bytesAt (atVa q (mvSrc x.raw)) n s
    0 < n → OnLine x c (mvSrc x.raw) wr q s → mvSrc x.raw % 64 + n ≤ 64 →
    let b := isBittern (q / 64) s
    (∀ q2 wr2, Running d 1 1 x c s → OnLine x c (mvDst x.raw) wr2 q2 s → mvDst x.raw % 64 + n ≤ 64 → WriteOk x c res 8 p s →
        let b2 := b || isBittern (q2 / 64) s
        Completes (.compare d inp) s (fun t => Finished d (if b2 then 0x10 else 0) (2 * n) t
          ∧ (∃ r, BytesSet (atVa p res) (natLe 8 r) s t
            ∧ (if bs = bytesAt (atVa q2 (mvDst x.raw)) n s then r = 2 ^ 64 - 1
               else r < n ∧ bs[r]? ≠ (bytesAt (atVa q2 (mvDst x.raw)) n s)[r]?
                 ∧ ∀ i < r, bs[i]? = (bytesAt (atVa q2 (mvDst x.raw)) n s)[i]?))
          ∧ isBittern (p / 64) t = (isBittern (p / 64) s || b2)))
    ∧ (Running d 1 2 x c s → WriteOk x c res 8 p s → Completes (.checksum d inp) s (fun t =>
        Finished d (if b then 0x10 else 0) n t
        ∧ BytesSet (atVa p res) (natLe 8 (if mvArg x.raw = 1 then crcFrom polyCrc64 64 (mvInit x.raw) bs
            else crcFrom polyCrc32c 32 (mvInit x.raw) bs)) s t
        ∧ isBittern (p / 64) t = (isBittern (p / 64) s || b)))
    ∧ (Running d 1 3 x c s → WriteOk x c res 48 p s → Completes (.contentHash d inp) s (fun t =>
        Finished d (if b then 0x10 else 0) n t
        ∧ BytesSet (atVa p res) (if mvArg x.raw = 1 then treeHash bs else sha384 bs) s t
        ∧ isBittern (p / 64) t = (isBittern (p / 64) s || b)))
    ∧ (Running d 1 4 x c s → WriteOk x c res 32 p s → Completes (.scrub d inp) s (fun t => Finished d 0 n t
        ∧ BytesSet (atVa p res) ([1, 0, b2n b, 0].flatMap (natLe 8)) s t ∧ isBittern (p / 64) t = isBittern (p / 64) s))

/-- R381: INIT continues a checksum. -/
def Obligations.ChecksumContinues : Prop :=
  ∀ (init : Nat) (a b : List Byte),
    (init < 2 ^ 64 → crcFrom polyCrc64 64 init (a ++ b) = crcFrom polyCrc64 64 (crcFrom polyCrc64 64 init a) b)
    ∧ (init < 2 ^ 32 → crcFrom polyCrc32c 32 init (a ++ b) = crcFrom polyCrc32c 32 (crcFrom polyCrc32c 32 init a) b)

/-- R70 to R72, R74, R75, R320 and R376. -/
def Obligations.MigrationsOfPages : Prop :=
  (∀ (d : Nat) (inp : EngIn) (x : Desc) (c : Comp) (a : Nat) (wr : Bool) (e : TlbEnt) (s : State), NoErrors inp →
      mvLen x.raw = 4096 → leafAt c (dAsid x.raw) s (mvSrc x.raw) = some e → e.va = mvSrc x.raw → e.size = 4096 →
      runAt x.runs (mvSrc x.raw) = some (.pool a, wr) → versionedHere c.slot a 4096 s = false →
      versionedHere c.slot (mvAux x.raw) 4096 s = false → rangeBacked c (mvAux x.raw) 4096 s = true →
      (∀ q ∈ physPages c (mvAux x.raw) 4096 s, isWritten q s = false) →
      nodeOfPa c a = some (myNode s) → nodeOfPa c (mvAux x.raw) = some (myNode s) →
      (∀ y ∈ s.slc.descs, y.id ≠ d → dAsid y.raw ≠ dAsid x.raw) →
      let page : MovePage := ⟨mvSrc x.raw, 4096, a, mvAux x.raw⟩
      (Running d 0 3 x c s → Completes (.migrate d inp) s (fun t => ∃ y m, descOf d t = some y ∧ y.phase = .waiting ∧ y.mig = some m
        ∧ m.batch = [page] ∧ m.todo = [] ∧ m.draining = true ∧ m.prefetch = false
        ∧ (∃ i ∈ t.xl.invs, i.asid = dAsid x.raw) ∧ (∀ e ∈ t.xl.tlb, e.asid ≠ dAsid x.raw) ∧ BytesKept s t))
      ∧ (Running d 0 4 x c s → (pagesOf (mvAux x.raw) 4096).all (nearHere c s) = true → Completes (.movePrefetch d inp) s (fun t =>
        ∃ y m, descOf d t = some y ∧ y.phase = .waiting ∧ y.mig = some m ∧ m.batch = [page] ∧ m.todo = [] ∧ m.draining = true
          ∧ m.prefetch = true ∧ t.xl = s.xl ∧ BytesKept s t)))
  ∧ (∀ (d : Nat) (inp : EngIn) (x : Desc) (c : Comp) (p : Nat) (a : Nat) (wr : Bool) (s : State), NoErrors inp → Running d 3 4 x c s →
      gaN x.raw = 1 → gaWeighted x.raw = false → gaKind x.raw = 0 → ReadOk x c (gaIdxVa x.raw) (gaWidth x.raw) p s →
      let i := leNat (bytesAt (atVa p (gaIdxVa x.raw)) (gaWidth x.raw) s)
      let va := gaTable x.raw false + i * gaStride x.raw false
      i < gaRows x.raw false → i ≠ 2 ^ (8 * gaWidth x.raw) - 1 → va / 4096 = (va + gaRowBytes x.raw - 1) / 4096 →
      runAt x.runs va = some (.pool a, wr) → a % 4096 = va % 4096 → nearHere c s (a / 4096 * 4096) = true →
      (∀ w ∈ [va, va + gaRowBytes x.raw - 1], ∃ e, e.va = va / 4096 * 4096 ∧ e.size = 4096
        ∧ s.xl.tlb.find? (fun e => e.asid == dAsid x.raw && e.va ≤ w && w < e.va + e.size) = some e) →
      Completes (.gatherPrefetch d inp) s (fun t => Finished d 0 0 t ∧ BytesKept s t ∧ t.xl = s.xl))
  ∧ (∀ (d : Nat) (x : Desc) (m : MigS) (c : Comp) (s : State), descOf d s = some x → x.phase = .waiting → x.mig = some m → m.draining = true →
      compAt x.slot s = some c → (m.prefetch = true ∨ ∀ i ∈ s.xl.invs, i.asid ≠ dAsid x.raw) → s.coh.dir = [] →
      Completes (.migrationBatchDrained d) s (fun t =>
        descOf d t = some { x with mig := some { m with draining := false, pages := m.batch.flatMap (fun p => physPages c p.src p.size s) } }
        ∧ SameBut [.slc] s t))
  ∧ (∀ (d : Nat) (ue : List Nat) (x : Desc) (m : MigS) (pg : MovePage) (c : Comp) (pa v q : Nat) (s : State), descOf d s = some x →
      x.phase = .waiting → x.mig = some m → m.draining = false → m.prefetch = false → m.batch = [pg] → m.todo = [] → pg.size = 2097152 →
      x.consumed = false → x.dropped = 0 → compAt x.slot s = some c → compOfSluice x.sluice s = some c → s.coh.dir = [] →
      moveFault c pg.src s = none → moveFault c pg.dst s = none →
      let s1 := each (pagesOf 0 pg.size) (fun o => copyPool d c (pg.src + o) (pg.dst + o)) (meetBatch c [pg] ue s)
      leafSlot c pg.va 3 (fget (CTU_ASID_ROOT (dAsid x.raw)) s1 * 4096) s1 = ((pa, 1, v), s1) → v < 2 ^ 64 → pa % 8 = 0 →
      LineAt c.slot (pa / 64) c q s1 → q / 4096 ∉ physPages c pg.src pg.size s →
      Completes (.migrationCopyDone d ue) s (fun t =>
        (∃ y, descOf d t = some y ∧ y.phase = .finished ∧ y.status = 0 ∧ y.bytes = x.bytes + pg.size ∧ y.mig = none)
        ∧ (∀ k ∈ physPages c pg.src pg.size s, isWritten k t = false)
        ∧ bytesAt (q / 64 * 64 + pa % 64) 8 t = natLe 8 (withAddr v pg.dst)
        ∧ (∀ b, b / 4096 ∉ physPages c pg.src pg.size s → (b < q / 64 * 64 + pa % 64 ∨ q / 64 * 64 + pa % 64 + 8 ≤ b) →
            byteAt b t = byteAt b s1)))

/-- R394 to R396 and R474, with the roles and rates of R386, R387 and R391; R537 for the ELECT of a fabric port; R543 for PERST_N within `mayTrain`. -/
def Obligations.PortsTrain : Prop :=
  (∀ (p : Fin 24) (i : TrainIn) (s : State), mayTrain p s = true → i.bad = [] →
      let go := fun (P : State → Prop) =>
        (kget? s.prt.retry p = none → kget? s.prt.ready p = none → Completes (.portTraining p i) s P)
        ∧ ((kget? s.prt.retry p = some 1 ∨ kget? s.prt.retry p = some 2) → Completes (.trainingRetry p i) s P)
        ∧ (kget? s.prt.retry p = some 3 → Completes (.peerAuthRetry p i) s P)
      let ready := fun (row : List Nat) (t : State) => kget? t.prt.ready p = some row ∧ kget? t.prt.retry p = none
        ∧ fget CLK_STATUS_SERDES_XREF t = (serdesRef s).getD 0 ∧ RegsBut [CLK_STATUS_SERDES_XREF] s t ∧ SameBut [.regs, .prt] s t
      let failed := fun (why : Nat) (t : State) => kget? t.prt.retry p = some why ∧ kget? t.prt.ready p = none
        ∧ Counted (PRT_EVENT_CNT p 2) 1 s t ∧ fget (PRT_STATUS_DOWN_STK p) t = 1
      let near := s.img.neighbours[p.val]? = some (i.farNode.toNat, i.farPort.toNat)
      (fget (PRT_STATUS_ROLE p) s = 3 →
        (i.fail = false → near → i.authOk = true → go (ready [2, 5, 0, b2n i.unsupported, 1, 15]))
        ∧ (i.fail = true → go (fun t => failed 1 t ∧ Raised 0x0020 0 p s t))
        ∧ (i.fail = false → ¬ near → go (fun t => failed 2 t ∧ fget (PRT_STATUS_MISWIRED_STK p) t = 1 ∧ Raised 0x0021 0 p s t))
        ∧ (i.fail = false → near → i.authOk = false → go (fun t => failed 3 t ∧ fget SEC_STATUS_PEER_AUTH_STK t = 1
            ∧ Counted (SEC_EVENT_CNT 2) 1 s t ∧ Raised 0x0025 0 p s t)))
      ∧ ((fget (PRT_STATUS_ROLE p) s = 1 ∨ fget (PRT_STATUS_ROLE p) s = 2) → i.fail = false →
          go (ready [cxlWidth (bondPorts p s) (8 * bondPorts p s), min i.rate.toNat (portCfg p 3 s), b2n i.flit256, b2n i.unsupported, 0, 15])))
  ∧ (∀ (p : Fin 24) (w rate flit uns par reb : Nat) (s : State), kget? s.prt.ready p = some [w, rate, flit, uns, par, reb] →
      w < 8 → rate < 8 → flit < 2 → par < 2 → reb < 16 → fget (PRT_STATUS_LINK_UP p) s = 0 →
      let role := fget (PRT_STATUS_ROLE p) s
      let up := fun t : State => kget? t.prt.ready p = none
        ∧ [PRT_STATUS_LINK_UP p, PRT_STATUS_WIDTH p, PRT_STATUS_RATE p, PRT_STATUS_FLIT256 p, PRT_STATUS_MEM_OFF p, PRT_STATUS_PARITY_ON p,
            PRT_STATUS_REBUILT_LANE p, PRT_CTL_RETRAIN p].map (fun f => fget f t) = [1, w, rate, flit, b2n (role == 1 && flit == 0), par, reb, 0]
      ((role = 1 ∨ role = 2) → Completes (.portUp p) s (fun t => up t ∧ BytesKept s t
        ∧ ((role = 1 ∧ flit = 0) ∨ (role = 2 ∧ uns = 1) → fget (PRT_STATUS_UNSUPPORTED_STK p) t = 1 ∧ Raised 0x0020 0 p s t)))
      ∧ (∀ n q, role = 3 → s.img.configured = true → neighbourOf p s = some (n, q) → Completes (.portUp p) s (fun t => up t
        ∧ SentOn p (helloPkt 1 n 0 s) (setLink p {} s) t ∧ SameBut [.regs, .prt, .fab, .out] s t)))
  ∧ (∀ (src : Src) (p : Fin 24) (v : BitVec 64) (s : State), isManagement src = true → v.toNat ≤ 1 → fget (PRT_CTL_RETRAIN p) s = 0 →
      fget (PRT_STATUS_ROLE p) s ≠ 0 → bondPorts p s ≠ 0 → (linkOf p s).down = false →
      Completes (.retrain src p v) s (fun t => fget (PRT_STATUS_LINK_UP p) t ≠ 1 ∧ fget (PRT_CTL_RETRAIN p) t = 1
        ∧ kget? t.prt.retry p = none ∧ kget? t.prt.ready p = none))

/-- R397 to R401. -/
def Obligations.LanesOfAPort : Prop :=
  (∀ (p : Fin 24) (off : Fin 4) (l : Fin 9) (lock : Bool) (s : State), fget (PRT_STATUS_LINK_UP p) s = 1 → off.val < bondPorts p s →
      let q := p.val + off.val
      let cause := if lock then 1 else 2
      let w := fget (PRT_STATUS_WIDTH p) s
      fget (PRT_LANE_MARGIN_USE q l) s < 2 → 2 ≤ w →
      let noted := fun (action : Nat) (t : State) => kmem t.prt.lost (laneKey p off l) = true ∧ Counted (PRT_EVENT_CNT p 0) 1 s t
        ∧ fget (PRT_STATUS_LANE_LOSS_STK p) t = 1 ∧ fget (PRT_LANE_MARGIN_USE q l) t = 2
        ∧ [PRT_LANE_EVENT_LANE q, PRT_LANE_EVENT_CAUSE q, PRT_LANE_EVENT_ACTION q].map (fun f => fget f t) = [l.val, cause, action]
        ∧ Logged 1 q (q + l.val * 2 ^ 8 + cause * 2 ^ 16 + action * 2 ^ 24 + fget (PRT_LANE_MARGIN_EYE_W q l) s * 2 ^ 32
            + fget (PRT_LANE_MARGIN_EYE_H q l) s * 2 ^ 40) s t
        ∧ fget (PRT_STATUS_LINK_UP p) t = 1 ∧ fget (PRT_STATUS_WIDTH p) t = w ∧ SameBut [.regs, .prt, .lr] s t
      (fget (PRT_STATUS_ROLE p) s = 3 → kmem s.prt.retraining p = false →
        (lostOf p s = [] → Completes (.laneLoss p off l lock) s (fun t => noted 0 t
          ∧ (if l.val = 8 then fget (PRT_STATUS_PARITY_ON p) t = 0 ∧ t.prt.rebuilding = s.prt.rebuilding
             else kmem t.prt.rebuilding p = true)))
        ∧ (lostOf p s ≠ [] → Completes (.laneLoss p off l lock) s (fun t => noted 1 t ∧ kmem t.prt.retraining p = true)))
      ∧ (fget (PRT_STATUS_ROLE p) s ≠ 3 → kget? s.prt.recovering p = none →
        Completes (.laneLoss p off l lock) s (fun t => noted 1 t ∧ kget? t.prt.recovering p = some (w - 1))))
  ∧ (∀ (p : Fin 24) (s : State),
      (kmem s.prt.rebuilding p = true → Completes (.laneRebuilt p) s (fun t => kmem t.prt.rebuilding p = false
        ∧ fget (PRT_STATUS_PARITY_ON p) t = 0 ∧ fget (PRT_STATUS_REBUILT_LANE p) t = ((lostOf p s).find? (· < 8)).getD 15
        ∧ t.out = s.out ++ [.flit p (mkFlit (linkOf p s).txSeq (linkOf p s).rxSeq 2 0 [])] ∧ (linkOf p t).nakSent = true
        ∧ SameBut [.regs, .prt, .fab, .out] s t))
      ∧ (kmem s.prt.retraining p = true → isMaster s = true → Completes (.x4RetrainDone p) s (fun t => kmem t.prt.retraining p = false
        ∧ fget (PRT_STATUS_WIDTH p) t = 1 ∧ fget (PRT_STATUS_DOWNGRADE_STK p) t = 1 ∧ Counted (PRT_EVENT_CNT p 1) 1 s t
        ∧ fget (PRT_STATUS_PARITY_ON p) t = 0 ∧ fget (PRT_STATUS_REBUILT_LANE p) t = stoodIn (lostOf p s) 1
        ∧ Raised 0x0022 0 p s t ∧ BytesKept s t))
      ∧ (∀ w, kget? s.prt.recovering p = some w → 0 < w → w < 8 → Completes (.pcieRecoveryDone p) s (fun t =>
          kget? t.prt.recovering p = none ∧ fget (PRT_STATUS_WIDTH p) t = w ∧ fget (PRT_STATUS_DOWNGRADE_STK p) t = 1
          ∧ Counted (PRT_EVENT_CNT p 1) 1 s t ∧ SameBut [.regs, .prt] s t)))
  ∧ (∀ (p : Fin 24) (eyes : List (Fin 9 × BitVec 8 × BitVec 8)) (s : State), (eyes.map (·.1)).Nodup →
      let measured := fun t : State =>
        (∀ e ∈ eyes, fget (PRT_LANE_MARGIN_EYE_W p e.1) t = e.2.1.toNat ∧ fget (PRT_LANE_MARGIN_EYE_H p e.1) t = e.2.2.toNat)
        ∧ SameBut [.regs] s t
      let fields := eyes.flatMap (fun e => [PRT_LANE_MARGIN_EYE_W p e.1, PRT_LANE_MARGIN_EYE_H p e.1])
      Completes (.eyeMeasurement p eyes) s (fun t => measured t ∧ RegsBut fields s t)
      ∧ (∀ (src : Src) (v : BitVec 64), isManagement src = true → v.toNat % 2 = 0 → fget (PRT_CTL_MARGIN_NOW p) s = 0 →
          Completes (.marginNow src p v eyes) s (fun t => measured t ∧ RegsBut (GLB_IGNORED_WRITE_CNT :: fields) s t)))

/-- R393, R402, R439, R491 (binding epochs) and R557. -/
def Obligations.FunctionsOfHostPorts : Prop :=
  (∀ (p : Fin 24) (s : State), (fget (PRT_STATUS_ROLE p) s = 1 → bondPorts p s ≠ 0 →
        Completes (.perstAssert p) s (fun t => kmem t.prt.perst p = true ∧ fget (PRT_STATUS_LINK_UP p) t ≠ 1
          ∧ (∀ k, k / 16 = p.val → kget? t.prt.hdm k = none)))
      ∧ Completes (.perstRelease p) s (fun t => kmem t.prt.perst p = false ∧ (∀ k, k ≠ p.val → kmem t.prt.perst k = kmem s.prt.perst k)
          ∧ SameBut [.prt] s t)
      ∧ (fget (PRT_STATUS_ROLE p) s = 1 → Completes (.conventionalReset p) s (fun t => (∀ k, k / 16 = p.val → kget? t.prt.hdm k = none)
          ∧ (∀ k, k / 16 ≠ p.val → kget? t.prt.hdm k = kget? s.prt.hdm k) ∧ SameBut [.prt] s t)))
  ∧ (∀ (p : Fin 24) (k : Fin 16) (base size : BitVec 64) (ways : BitVec 8) (s : State), fget (PRT_STATUS_LINK_UP p) s = 1 →
      fget (PRT_STATUS_ROLE p) s = 1 → fget (PRT_AGENT_VALID p k) s = 1 →
      Completes (.hdmCommit p k base size ways) s (fun t => SameBut [.prt] s t
        ∧ kget? t.prt.hdm (p.val * 16 + k.val) = (if ways.toNat = 1 ∧ base.toNat % 2 ^ 28 = 0 ∧ size.toNat % 2 ^ 28 = 0 ∧ 2 ^ 28 ≤ size.toNat
            then some ⟨base.toNat, size.toNat⟩ else none)
        ∧ ∀ j, j ≠ p.val * 16 + k.val → kget? t.prt.hdm j = kget? s.prt.hdm j))
  ∧ (∀ (src : Src) (p : Fin 24) (k : Fin 16) (a : RegAcc) (s : State), isManagement src = true → a.addr.toNat % (if a.wide then 8 else 4) = 0 →
      let w := wrOf (0x500200 + 0x4000 * p.val + 8 * k.val + a.addr.toNat % 8) a.wide a.value.toNat
      let flds := [PRT_AGENT_VALID p k, PRT_AGENT_MATCH_ANY p k, PRT_AGENT_SLOT p k, PRT_AGENT_AGENT p k, PRT_AGENT_BI_ID p k, PRT_AGENT_REQ_ID p k]
      let new := flds.map (fun f => if touches w f then mergeFld w f s else fget f s)
      (agentEntryOk w p k s = true → Completes (.agentEntryWrite src p k a) s (fun t => flds.map (fun f => fget f t) = new
        ∧ (new ≠ agentFields p k s → kget? t.prt.hdm (p.val * 16 + k.val) = none
            ∧ (new.head? = some 1 → fget (CMP_SEC_BIND_BIND_EPOCH (new.getD 2 0)) t = min (2 ^ 32 - 1) (fget (CMP_SEC_BIND_BIND_EPOCH (new.getD 2 0)) s + 1)))
        ∧ (∀ j, j ≠ p.val * 16 + k.val → kget? t.prt.hdm j = kget? s.prt.hdm j) ∧ SameBut [.regs, .prt] s t))
      ∧ (agentEntryOk w p k s = false → Completes (.agentEntryWrite src p k a) s (fun t => flds.map (fun f => fget f t) = agentFields p k s
        ∧ RegsBut [GLB_IGNORED_WRITE_CNT] s t ∧ SameBut [.regs] s t
        ∧ (new ≠ agentFields p k s → Counted GLB_IGNORED_WRITE_CNT 1 s t))))
  ∧ (∀ (p : Fin 24) (k : Nat) (h : HeldReq) (c : Comp) (pa i l n q : Nat) (s : State), heldAt p s = [h] → h.req.port = p → h.kind = .rdData →
      entryOf p h.req.biId.toNat s = some k → entryComp p k s = some c → 0 < c.hostRate → c.state ≠ .failed →
      hdmPa p k h.req.hpa.toNat s = some pa → splitPa c pa = some (i, l) → isLeaving c l s = false → homeOf c pa s = .member i n →
      let ns := (kgetD s.prt.drained (p.val * 16 + k) 0 + 64 - 65536 + c.hostRate - 1) / c.hostRate
      let rd := sentPkt 0x01 n c.cmpId (lowestFree s.fab.tags 0) (pa / 64 * 64) (fget (PRT_AGENT_AGENT p k) s + 256) [] false s
      PathReady rd q s →
      Completes (.rateHoldRelease p) s (fun t => heldAt p t = [] ∧ Counted (PRT_EVENT_CNT p 7) ns s t
        ∧ kgetD t.prt.drained (p.val * 16 + k) 0 = kgetD s.prt.drained (p.val * 16 + k) 0 - ns * c.hostRate + 64
        ∧ SentOn q rd s t ∧ BytesKept s t))

/-- R409 to R411, R415, R417 to R421 and R468. -/
def Obligations.ClockMonitorsAndPlans : Prop :=
  let held := fun (s t : State) => fget CLK_STATUS_PLAN t = 3 ∧ fget CLK_STATUS_HOLD_STK t = 1 ∧ Counted (CLK_EVENT_CNT 3) 1 s t
    ∧ t.mgt.fwUp = false ∧ fget CLK_STATUS_NMI_PENDING t = 1 ∧ fget GLB_PKG_STATUS_FAULT t = 1
    ∧ fget PWR_DOMAIN_ON t = 0xE000000000 ∧ fget PWR_RETAIN_SELF_REFRESH t = 0xFFFFFFFF
  let fellBack := fun (s t : State) => fget CLK_STATUS_PLAN t = 2 ∧ fget CLK_STATUS_FALLBACK_STK t = 1 ∧ Counted (CLK_EVENT_CNT 2) 1 s t
    ∧ t.clk.lockTo = none ∧ Logged 9 0 2 s t
  let noLf := fun (s t : State) => fget CLK_STATUS_LFREF_OK t = 0 ∧ fget CLK_STATUS_LFREF_FAIL_STK t = 1 ∧ t.clk.lfRun = 0
    ∧ (s.brl.on = true → fget BRL_STATUS_LFREF_LOST t = 1) ∧ SameBut [.regs, .clk] s t
  let noIro := fun (s t : State) => fget CLK_STATUS_IRO_QUAL t = 0 ∧ fget CLK_STATUS_IRO_FAIL_STK t = 1 ∧ Counted (CLK_EVENT_CNT 1) 1 s t
  (∀ s : State, fget CLK_STATUS_PLAN s = 0 → xrefGood 0 s = false → xrefGood 1 s = false →
      (fget CLK_STATUS_IRO_QUAL s = 1 → Completes .clockStartTimeout s (fellBack s))
      ∧ (fget CLK_STATUS_IRO_QUAL s = 0 → Completes .clockStartTimeout s (held s)))
  ∧ (∀ (ppm : Option Int) (s : State), monitorsRun s = true → Completes (.lfrefWindow ppm) s (fun t =>
      if ppm.any (fun p => p.natAbs ≤ 50000) then t.clk.lfRun = s.clk.lfRun + 1 ∧ SameBut [.regs, .clk] s t
        ∧ fget CLK_STATUS_LFREF_OK t = (if 1 ≤ s.clk.lfRun then 1 else fget CLK_STATUS_LFREF_OK s) else noLf s t))
  ∧ (∀ s : State, monitorsRun s = true → Completes .lfrefEdgeLoss s (noLf s))
  ∧ (∀ (ppm : Option Int) (s : State), monitorsRun s = true →
      (iroInRange ppm = true → Completes (.iroWindow ppm) s (fun t => fget CLK_STATUS_IRO_QUAL t = 1 ∧ RegsBut [CLK_STATUS_IRO_QUAL] s t ∧ SameBut [.regs] s t))
      ∧ (iroInRange ppm = false → fget CLK_STATUS_PLAN s ≠ 2 → Completes (.iroWindow ppm) s (fun t => noIro s t ∧ SameBut [.regs] s t))
      ∧ (fget CLK_STATUS_IRO_QUAL s = 1 → fget CLK_STATUS_PLAN s = 2 → ∀ x, anyXref s = some x →
          Completes .iroTrimEnd s (fun t => noIro s t ∧ t.clk.lockTo = some x ∧ BytesKept s t)))
  ∧ (∀ (v : XrefVote) (s : State), monitorsRun s = true → fget CLK_STATUS_PLAN s ≠ 3 → voteFor 1 v s = true → xrefGood 1 s = true →
      (voteFor 0 v s = true → xrefGood 0 s = false → s.clk.aFailed = true → s.clk.aRun = 3 → fget CLK_STATUS_PLAN s ≠ 0 →
        Completes (.xrefVoteWindow v) s (fun t => xrefGood 0 t = true ∧ t.clk.aFailed = false ∧ SameBut [.regs, .clk] s t))
      ∧ (voteFor 0 v s = false → xrefGood 0 s = true → fget CLK_STATUS_PLAN s = 1 → fget CLK_STATUS_CORE_XREF s = 0 → s.clk.lockTo = none →
        fget CLK_STATUS_SERDES_XREF s < 2 → fget CLK_STATUS_IRO_QUAL s = 1 → Completes (.xrefVoteWindow v) s (fun t => fellBack s t ∧ xrefGood 0 t = false
          ∧ fget CLK_STATUS_XREF_A_FAIL_STK t = 1 ∧ Counted (CLK_EVENT_CNT 0) 1 s t ∧ fget CLK_STATUS_SERDES_XREF t = 1 ∧ BytesKept s t)))
  ∧ (∀ (b : Bool) (s : State), monitorsRun s = true → xrefGood (b2n b) s = true → xrefGood (1 - b2n b) s = true → fget CLK_STATUS_PLAN s = 1 →
      fget CLK_STATUS_CORE_XREF s = b2n b → fget CLK_STATUS_SERDES_XREF s < 2 → fget CLK_STATUS_IRO_QUAL s = 0 → Completes (.xrefEdgeLoss b) s (fun t =>
        xrefGood (b2n b) t = false ∧ fget CLK_STATUS_CORE_XREF t = 1 - b2n b ∧ fget CLK_STATUS_PLAN t = 1
        ∧ fget CLK_STATUS_SERDES_XREF t = 1 - b2n b ∧ Counted (CLK_EVENT_CNT 0) 1 s t ∧ BytesKept s t))
  ∧ (∀ (v : XrefVote) (iro : Option Int) (s : State), monitorsRun s = true → fget CLK_STATUS_PLAN s = 3 →
      (voteFor 0 v s = true → fget GLB_PKG_STATUS_THERMTRIP s = 0 → Completes (.holdRetry v iro) s (fun t =>
        xrefGood 0 t = true ∧ fget CLK_STATUS_PLAN t = 0 ∧ Counted (CLK_EVENT_CNT 4) 1 s t ∧ t.comps = [] ∧ t.mgt.fwUp = false))
      ∧ (voteFor 0 v s = false → voteFor 1 v s = false → iroInRange iro = false → Completes (.holdRetry v iro) s (fun t =>
        fget CLK_STATUS_PLAN t = 3 ∧ Counted (CLK_EVENT_CNT 4) 1 s t ∧ Counted (CLK_EVENT_CNT 0) 2 s t ∧ noIro s t ∧ SameBut [.regs] s t)))
  ∧ (∀ (src : Src) (v : BitVec 64) (s : State), isManagement src = true → v.toNat < 4 → fget CLK_CTL_RETURN s = 0 → fget CLK_STATUS_PLAN s = 2 →
      xrefGood (v.toNat / 2) s = true → Completes (.returnMain src v) s (fun t => t.clk.lockTo = some (v.toNat / 2)
        ∧ fget CLK_CTL_RETURN t = 1 ∧ fget CLK_CTL_RETURN_REF t = v.toNat / 2 ∧ fget CLK_STATUS_PLAN t = 2 ∧ SameBut [.regs, .clk] s t))
  ∧ (∀ (x : Nat) (s : State), s.clk.lockTo = some x → x < 2 → xrefGood x s = true → (fget CLK_STATUS_PLAN s = 0 ∨ fget CLK_STATUS_PLAN s = 2) →
      Completes .mainPllLocked s (fun t => fget CLK_STATUS_PLAN t = 1 ∧ fget CLK_STATUS_CORE_XREF t = x ∧ t.clk.lockTo = none
        ∧ fget CLK_CTL_RETURN t = 0 ∧ Logged 9 0 1 s t ∧ SameBut [.regs, .clk, .lr] s t))
  ∧ (∀ s : State, s.clk.pd38 = 0 →
      (fget CLK_STATUS_IRO_QUAL s = 1 → Completes .aorcFail s (fun t => t.clk.pd38 = 1 ∧ fget RAS_STATUS_AORC_FAIL_STK t = 1
        ∧ fget GLB_PKG_STATUS_FAULT t = 1 ∧ RaisedC 0x0046 0 s t ∧ BytesKept s t))
      ∧ (fget CLK_STATUS_IRO_QUAL s = 0 → fget CLK_STATUS_PLAN s ≠ 3 → Completes .aorcFail s (fun t => t.clk.pd38 = 2
        ∧ fget RAS_STATUS_AORC_FAIL_STK t = 1 ∧ held s t)))

/-- R22, R227 and R423 to R425. -/
def Obligations.TilesGateAndWake : Prop :=
  let others := fun (t : Fin 32) (s u : State) => (∀ i : Fin 32, i ≠ t → fget (TIL_STATE_POWER i) u = fget (TIL_STATE_POWER i) s) ∧ SameBut [.regs] s u
  let retain := fun (t : Fin 32) (on : Bool) (s u : State) => RegsBut [PWR_RETAIN_SELF_REFRESH] s u ∧ SameBut [.regs] s u
    ∧ ∀ i : Fin 32, bitAt (fget PWR_RETAIN_SELF_REFRESH u) i = (if i = t then on else bitAt (fget PWR_RETAIN_SELF_REFRESH s) i)
  (∀ (t : Fin 32) (s : State),
      (fget (TIL_STATE_POWER t) s = 2 → tileBusy t s = false → tileHeld t s = false → tileCopies t s = [] →
        Completes (.tileGate t) s (fun u => fget (TIL_STATE_POWER t) u = 3 ∧ RegsBut [TIL_STATE_POWER t] s u ∧ SameBut [.regs] s u))
      ∧ (fget (TIL_STATE_POWER t) s = 3 → tileCopies t s = [] → (∀ e ∈ s.coh.dir, purgeEntry t e.2 = e.2) →
        (∀ e ∈ s.coh.filter, purgeEntry t e.2.dir = e.2.dir) →
        Completes (.tileGated t) s (fun u => fget (TIL_STATE_POWER t) u = 0 ∧ domainOn t u = false ∧ others t s u))
      ∧ (fget (TIL_STATE_POWER t) s = 0 → mayPower t s = true → Completes (.tileWake t) s (fun u => fget (TIL_STATE_POWER t) u = 1
          ∧ domainOn t u = true ∧ Counted (PWR_EVENT_CNT 5) 1 s u ∧ RegsBut [TIL_STATE_POWER t, PWR_DOMAIN_ON, PWR_EVENT_CNT 5] s u ∧ SameBut [.regs] s u))
      ∧ (fget (TIL_STATE_POWER t) s = 3 → Completes (.tileWake t) s (fun u => fget (TIL_STATE_POWER t) u = 2
          ∧ RegsBut [TIL_STATE_POWER t] s u ∧ SameBut [.regs] s u))
      ∧ (fget (TIL_STATE_POWER t) s = 0 → Completes (.vaultSelfRefresh t) s (retain t true s))
      ∧ (bitAt (fget PWR_RETAIN_SELF_REFRESH s) t = true → s.prt.srWait = [] → Completes (.selfRefreshExit t) s (retain t false s)))
  ∧ (∀ (src : Src) (v : BitVec 64) (s : State), isManagement src = true → v.toNat < 2 ^ 32 →
      Completes (.pwrWakeWrite src v) s (fun u => fget PWR_WAKE_HOLD_ON u = v.toNat ∧ SameBut [.regs] s u
        ∧ ∀ t : Fin 32, fget (TIL_STATE_POWER t) u =
          (if bitAt v.toNat t = true ∧ fget (TIL_STATE_POWER t) s = 0 ∧ mayPower t s = true then 1
           else if bitAt v.toNat t = true ∧ fget (TIL_STATE_POWER t) s = 3 then 2 else fget (TIL_STATE_POWER t) s)))
  ∧ (∀ (t : Fin 32) (s : State), fget (TIL_STATE_POWER t) s = 1 → s.prt.srWait = [] → NoneWaits s →
      Completes (.tileWakeDone t) s (fun u => fget (TIL_STATE_POWER t) u = 2
        ∧ fget (TIL_STATE_INCARNATION t) u = (if fget (TIL_STATE_INCARNATION t) s % 65536 = 65535 then 1 else (fget (TIL_STATE_INCARNATION t) s + 1) % 65536)
        ∧ bitAt (fget PWR_RETAIN_SELF_REFRESH u) t = false
        ∧ RegsBut ([TIL_STATE_POWER t, TIL_STATE_INCARNATION t, PWR_RETAIN_SELF_REFRESH] ++ (List.range 4).map PWR_TILE_CODE) s u
        ∧ SameBut [.regs] s u))

/-- R427 to R434, and R445 for a failed PMBus transaction. -/
def Obligations.PowerGovernorAndBudget : Prop :=
  (∀ (mw : Nat) (s : State), let g := fget PWR_STATUS_GOV_CODE s
      let taken := fun (u : State) => u.pwr.sum = s.pwr.sum + mw ∧ u.pwr.count = s.pwr.count + 1 ∧ u.pwr.last = mw ∧ fget PWR_STATUS_REFUSING u = b2n (refused s)
        ∧ BytesKept s u
      (mw ≤ sustainedW s * 1000 → Completes (.governorSample mw) s (fun u => taken u ∧ u.pwr.burst = min 20000000 (s.pwr.burst + 1)
          ∧ fget PWR_STATUS_LIMIT u = 0 ∧ fget PWR_STATUS_GOV_CODE u = g ∧ u.pwr.inBurst = false ∧ u.pwr.exceeded = s.pwr.exceeded))
      ∧ (sustainedW s * 1000 < mw → mw ≤ burstW s * 1000 → s.pwr.inBurst = true → burstEn s = true → refused s = false →
          fget PWR_STATUS_LIMIT s ≠ 3 → 100010 < s.pwr.burst →
          Completes (.governorSample mw) s (fun u => taken u ∧ u.pwr.burst = s.pwr.burst - 10 ∧ fget PWR_STATUS_LIMIT u = 1
            ∧ fget PWR_STATUS_GOV_CODE u = g ∧ u.pwr.exceeded = true))
      ∧ (1500000 < mw → s.pwr.inBurst = true → s.pwr.inSpike = false → s.pwr.wait ≤ 1 → fget CLK_STATUS_PLAN s ≠ 2 → 40 < g → g < 256 →
          Completes (.governorSample mw) s (fun u => taken u ∧ fget PWR_STATUS_LIMIT u = 3 ∧ fget PWR_STATUS_GOV_CODE u = max 40 (g - 8)
            ∧ fget PWR_STATUS_GOV_STK u = 1 ∧ Counted (PWR_EVENT_CNT 0) 1 s u ∧ Counted (PWR_EVENT_CNT 2) 1 s u ∧ u.pwr.wait = 10)))
  ∧ (∀ s : State, fget PWR_STATUS_THERMAL s = 0 → fget PWR_STATUS_LIMIT s ≠ 3 → s.pwr.last + 50000 ≤ sustainedW s * 1000 →
      (0 < s.pwr.throttle → Completes .governorRaise s (fun u => u.pwr.throttle = s.pwr.throttle - 1 ∧ SameBut [.pwr] s u))
      ∧ (s.pwr.throttle = 0 → fget CLK_STATUS_PLAN s ≠ 2 → Completes .governorRaise s (fun u =>
          fget PWR_STATUS_GOV_CODE u = min 160 (fget PWR_STATUS_GOV_CODE s + 8) ∧ SameBut [.regs] s u)))
  ∧ (∀ (mw : Nat) (s : State), Completes (.powerCalibration mw true) s (fun u => u.pwr.calib = mw ∧ SameBut [.pwr] s u)
      ∧ Completes (.powerCalibration mw false) s (fun u => fget GLB_PKG_STATUS_PMBUS_ERR_STK u = 1 ∧ RaisedC 0x0031 0 s u ∧ u.pwr = s.pwr))
  ∧ (∀ (logic dram : Int) (s : State), fget PWR_STATUS_GOV_CODE s < 256 → Completes (.thermalLoop logic dram) s (fun u =>
      u.pwr.refresh2 = (if dram > 85 then true else false) ∧ SameBut [.regs, .pwr] s u
      ∧ (if logic > 103 ∨ dram > 93 then fget PWR_STATUS_THERMAL u = 1 ∧ fget PWR_STATUS_THERMAL_STK u = 1 ∧ Counted (PWR_EVENT_CNT 4) 1 s u
            ∧ fget PWR_STATUS_GOV_CODE u = max 40 (fget PWR_STATUS_GOV_CODE s - 8)
         else fget PWR_STATUS_THERMAL u = (if logic ≤ 100 ∧ dram ≤ 90 then 0 else fget PWR_STATUS_THERMAL s) ∧ RegsBut [PWR_STATUS_THERMAL] s u)))
  ∧ (∀ s : State, let used := s.lr.cur.burstUsed + (if s.pwr.exceeded then 1 else 0)
      Completes .burstCharge s (fun u => u.lr.cur.burstUsed = used ∧ u.pwr.sum = 0 ∧ u.pwr.count = 0 ∧ u.pwr.exceeded = false
        ∧ (s.pwr.count ≠ 0 → fget PWR_STATUS_POWER_W u = min 2047 (s.pwr.sum / s.pwr.count / 1000))
        ∧ (s.pwr.exceeded = true → fget PWR_BURST_USED_S u = used / 1000 % 2 ^ 32 ∧ used ≤ u.lr.ahead
          ∧ (s.lr.cur.burstGranted * 9 ≤ used * 10 → fget PWR_STATUS_BUDGET_WARN_STK u = 1)
          ∧ (s.lr.ahead < used → ∃ c, kget? u.lr.primary (u.lr.cur.seq % 16) = some c ∧ c.burstUsed = u.lr.ahead))
        ∧ SameBut [.regs, .pwr, .lr] s u))
  ∧ (∀ (src : Src) (v : BitVec 64) (s : State), isManagement src = true → v.toNat ≤ 1 → fget PWR_RENEW_RENEW s = 0 →
      let have_ := s.lr.cur.burstGranted
      let want := have_ + wearBudgetMs s
      let cap := 1800000000 + 1800000000 * s.lr.cur.poweredS / 31557600
      Completes (.renew src v) s (fun u => fget PWR_RENEW_RENEW u = 0 ∧ SameBut [.regs, .lr] s u
        ∧ u.lr.cur.burstGranted = (if min want cap ≤ have_ then have_ else min want cap)
        ∧ fget PWR_RENEW_RESULT u = (if min want cap ≤ have_ then 2 else if want ≤ cap then 0 else 1)
        ∧ (have_ < min want cap → Logged 0x0E 0 (min want cap) s u)))

/-- R441 to R443 and R445 to R448, with SEQ_RETRY of management. -/
def Obligations.SuppliesAndRails : Prop :=
  let started := fun (t : State) => t.pwr.seq = 2 ∧ t.pwr.railsOn = 2 ^ 3 ∧ t.pwr.railsGood = 0
  let coreIsOff := fun (t : State) => fget PWR_DOMAIN_ON t = 0xE000000000 ∧ fget PWR_RETAIN_SELF_REFRESH t = 0xFFFFFFFF
    ∧ t.slc.descs = [] ∧ t.coh.dir = [] ∧ t.fab.tags = [] ∧ t.pan.pieces = []
  let lost37 := fun (t : State) => (∀ a, byteAt a t = 0) ∧ (∀ p, isWritten p t = false) ∧ t.sec.keys = [] ∧ fget SEC_KEY_LIVE t = 0 ∧ t.mgt.seals = []
  (∀ (strap : BitVec 10) (mcap : Bool) (boot i3c : BitVec 2) (s : State), Completes (.pwrgdAonRise strap mcap boot i3c) s (fun t =>
      [GLB_PKG_STATUS_STRAP_ID, GLB_PKG_STATUS_STRAP_MCAP, GLB_PKG_STATUS_STRAP_BOOT, GLB_PKG_STATUS_STRAP_I3C].map (fun f => fget f t)
        = [strap.toNat, b2n mcap, boot.toNat, i3c.toNat]
      ∧ (∀ f : Fld, levelKey f.key = false → inBrl (f.key / 8) = false → inLrc (f.key / 8) = false → fget f t = f.reset)
      ∧ started t ∧ t.pwr.aon = true ∧ t.pwr.seqFails = 0 ∧ t.comps = [] ∧ t.mgt.fwUp = false))
  ∧ (∀ s : State, Completes .pwrgdAonFall s (fun t => lost37 t ∧ coreIsOff t ∧ t.pwr.aon = false ∧ t.pwr.railsOn = 0 ∧ t.mgt.fwUp = false
      ∧ t.brl.on = false ∧ fget GLB_PKG_STATUS_PWRGD_MAIN t = 0))
  ∧ (∀ s : State, Completes .pwrgdMainRise s (fun t => fget GLB_PKG_STATUS_PWRGD_MAIN t = 1 ∧ t.pwr.seqFails = 0
      ∧ t.pwr.seq = (if s.pwr.seq = 6 then 7 else s.pwr.seq) ∧ SameBut [.regs, .pwr] s t ∧ RegsBut [GLB_PKG_STATUS_PWRGD_MAIN, GLB_PKG_STATUS_FAULT] s t
      ∧ (fget GLB_PKG_STATUS_THERMTRIP s = 0 → s.clk.pd38 = 0 → fget CLK_STATUS_PLAN s ≠ 3 → s.mgt.stopped = false → fget GLB_PKG_STATUS_FAULT t = 0)))
  ∧ (∀ (r : Fin 6) (s : State), r.val ∈ stepRails s.pwr.seq →
      (let good := s.pwr.railsGood ||| 2 ^ r.val
       Completes (.railPowerGood r) s (fun t => SameBut [.pwr] s t ∧ t.pwr.railsGood = good
        ∧ (if ∀ x ∈ stepRails s.pwr.seq, bitAt good x = true then t.pwr.seq = s.pwr.seq + 1
              ∧ (∀ x, bitAt t.pwr.railsOn x = (bitAt s.pwr.railsOn x || (stepRails (s.pwr.seq + 1)).contains x))
           else t.pwr.seq = s.pwr.seq ∧ t.pwr.railsOn = s.pwr.railsOn)))
      ∧ (bitAt s.pwr.railsGood r.val = false → Completes (.railTimeout r) s (fun t => t.pwr.seq = 0 ∧ t.pwr.railsOn = 0
        ∧ t.pwr.seqFails = s.pwr.seqFails + 1 ∧ fget GLB_PKG_STATUS_SEQ_FAIL_STK t = 1
        ∧ (1 ≤ s.pwr.seqFails → fget GLB_PKG_STATUS_FAULT t = 1
            ∧ (if s.mgt.fwUp then Raised 0x0031 0 r s t else t.mgt.latched = s.mgt.latched ++ [(0x0031, r.val)])))))
  ∧ (∀ s : State, s.pwr.seq = 0 → s.pwr.seqFails = 1 → Completes .sequenceRetry s (fun t => started t ∧ SameBut [.pwr] s t))
  ∧ (∀ (m : MgtReq) (s : State), MgtUp m s → s.pwr.seq = 0 → s.pwr.seqFails ≠ 0 → Completes (.seqRetry m) s (fun t => started t
      ∧ t.pwr.seqFails = 0 ∧ t.out = s.out ++ [.answer m.tag.toNat 0 []] ∧ SameBut [.pwr, .mgt, .out] s t))
  ∧ (∀ (retained : Bool) (s : State), fget GLB_PKG_STATUS_PWRGD_MAIN s = 1 → Completes (.mainPowerLoss retained) s (fun t => coreIsOff t
      ∧ [GLB_PKG_STATUS_PWRGD_MAIN, GLB_PKG_STATUS_MAIN_LOSS_STK, GLB_PKG_STATUS_FAULT].map (fun f => fget f t) = [0, 1, 1]
      ∧ Logged 0x0A 0 (b2n retained) (coreOff s) t ∧ (retained = false → lost37 t)))
  ∧ (∀ (logic dram : Int) (s : State), fget GLB_PKG_STATUS_THERMTRIP s = 0 → (115 ≤ logic ∨ 105 ≤ dram) →
      Completes (.thermalTrip logic dram) s (fun t => coreIsOff t ∧ t.mgt.fwUp = false ∧ t.lr.cur.trips = (coreOff s).lr.cur.trips + 1
        ∧ [GLB_PKG_STATUS_THERMTRIP, GLB_PKG_STATUS_FAULT].map (fun f => fget f t) = [1, 1] ∧ RaisedC 0x0033 0 (coreOff s) t
        ∧ Logged 6 0 (logic.toNat % 256 + dram.toNat % 256 * 256) (coreOff s) t))
  ∧ (∀ (r : Fin 6) (status : BitVec 16) (s : State),
      Completes (.pmbAlert r status true) s (fun t => Raised 0x0031 0 r s t ∧ (s.mgt.events.length < 4096 → ∃ e ∈ t.mgt.events, e.data = status.toNat)
        ∧ BytesKept s t)
      ∧ Completes (.pmbAlert r status false) s (fun t => Raised 0x0031 0 r s t ∧ fget GLB_PKG_STATUS_PMBUS_ERR_STK t = 1 ∧ BytesKept s t))

/-- R14, with R107 (harvests), R443 and R468 (FAULT_N), R483 (held keys) and R542 (frames kept). -/
def Obligations.Resets : Prop :=
  (∀ s : State, s.pwr.aon = true → Completes .coldReset s (fun t =>
      (∀ f : Fld, levelKey f.key = false → inBrl (f.key / 8) = false → inLrc (f.key / 8) = false → fget f t = f.reset)
      ∧ t.comps = [] ∧ t.hv = {} ∧ t.fab = {} ∧ t.slc.descs = [] ∧ t.slc.sluices = [] ∧ t.xl = {} ∧ t.engs = {} ∧ t.pan = {} ∧ t.clk = {}
      ∧ t.img.kept = keepFrames s ∧ (∀ k ∈ t.sec.keys, k.2.held = true) ∧ t.mgt.fwUp = false))
  ∧ (∀ s : State, s.pwr.aon = false → exec .coldReset s = .next s)
  ∧ (∀ (m : MgtReq) (s : State), MgtUp m s → Completes (.warmReset m) s (fun t =>
      (∀ f : Fld, warmKeeps f.key = false → f.key ≠ GLB_PKG_STATUS_FAULT.key → fget f t = f.reset)
      ∧ fget GLB_PKG_STATUS_FAULT t = b2n (fget GLB_PKG_STATUS_THERMTRIP s == 1 || s.clk.pd38 != 0)
      ∧ t.comps = [] ∧ t.fab = {} ∧ t.slc.descs = [] ∧ t.slc.sluices = [] ∧ t.xl = {} ∧ t.engs = {} ∧ t.pan.pieces = []
      ∧ t.pan.strikes = [] ∧ t.img.kept = keepFrames s ∧ t.mgt.fwUp = false ∧ t.sec.sessions = 0))

/-- R449, R451 to R454 and R463 to R467. -/
def Obligations.ScrubSparingAndAudits : Prop :=
  let spared := fun (l : Nat) (s t : State) => t.pan.sparing = some l ∧ fget RAS_STATUS_SPARING t = 1 ∧ fget RAS_STATUS_LAYER_SPARE_STK t = 1
    ∧ Raised 0x0042 0 l s t
  let failed := fun (slot : Nat) (t : State) => (compAt slot t).map (·.state) = some .failed
  (∀ (l : Fin 13) (line : Nat) (s : State), isWritten (line / 64) s = true → line * 64 < farBase →
      let n := kgetD s.pan.layerCe l.val 0 + 1
      Completes (.patrolScrubPass [] true true) s (fun t => t.pan = { s.pan with layerCe := [], layerUe := [] }
        ∧ Counted (RAS_ERR_CNT 11) 1 s t ∧ RegsBut [RAS_ERR_CNT 11] s t ∧ SameBut [.regs, .pan] s t)
      ∧ Completes (.patrolScrubPass [⟨line, l, false⟩] false false) s (fun t => Counted (RAS_ERR_CNT 0) 1 s t ∧ Counted (RAS_ERR_CNT 11) 1 s t
        ∧ kgetD t.pan.layerCe l.val 0 = n ∧ BytesKept s t
        ∧ (fget RAS_CTL_LAYER_CE_LIMIT s < n → dataLayer l s = true → spareLayer s ≠ 15 → s.pan.sparing = none → spared l s t))
      ∧ Completes (.patrolScrubPass [⟨line, l, true⟩] false false) s (fun t => Counted (RAS_ERR_CNT 1) 1 s t ∧ Counted (RAS_ERR_CNT 11) 1 s t
        ∧ isBittern line t = true ∧ kmem t.pan.layerUe (l.val * 4096 + vaultOf (line * 64)) = true ∧ BytesKept s t
        ∧ Logged 5 (vaultOf (line * 64)) (l.val + vaultOf (line * 64) * 2 ^ 8) s t))
  ∧ (∀ (src : Src) (v : BitVec 64) (s : State), isManagement src = true → fget RAS_CTL_LAYER_SPARE_NOW s = 0 → bitsOf v.toNat 17 4 ≤ 12 →
      let l := bitsOf v.toNat 17 4
      (dataLayer l s = true → spareLayer s ≠ 15 → s.pan.sparing = none → Completes (.layerSpareNow src v) s (fun t => spared l s t
        ∧ fget RAS_CTL_LAYER_SPARE_NOW t = 1 ∧ fget RAS_CTL_LAYER t = l ∧ BytesKept s t))
      ∧ (spareLayer s = 15 → Completes (.layerSpareNow src v) s (fun t => Counted GLB_IGNORED_WRITE_CNT 1 s t ∧ SameBut [.regs] s t)))
  ∧ (∀ (l : Nat) (s : State), s.pan.sparing = some l → Completes (.layerCopyDone []) s (fun t => t.pan.sparing = none
      ∧ [RAS_STATUS_SPARING, RAS_STATUS_SPARE_LAYER, RAS_CTL_LAYER_SPARE_NOW].map (fun f => fget f t) = [0, 15, 0]
      ∧ t.lr.cur.retiredLayers = s.lr.cur.retiredLayers ||| 2 ^ l ∧ t.lr.cur.spareLayer = 15 ∧ kgetD t.pan.layerCe l 0 = 0
      ∧ Logged 4 l (l + spareLayer s * 2 ^ 8) s t ∧ SameBut [.regs, .pan, .lr] s t))
  ∧ (∀ (fixed : Nat) (s : State), 0 < fixed → Completes (.configGoldenCheck fixed false) s (fun t => fget RAS_STATUS_CFG_FIX_STK t = 1
        ∧ Counted (RAS_ERR_CNT 9) fixed s t ∧ RegsBut [RAS_STATUS_CFG_FIX_STK, RAS_ERR_CNT 9] s t ∧ SameBut [.regs] s t)
      ∧ Completes (.configGoldenCheck 0 true) s (fun t => t.mgt.stopped = true ∧ fget RAS_STATUS_FATAL_INT_STK t = 1
        ∧ fget GLB_PKG_STATUS_FAULT t = 1 ∧ ∀ p < 24, fget (PRT_STATUS_LINK_UP p) t ≠ 1))
  ∧ (∀ (code unit : BitVec 8) (c : Comp) (s : State), s.prt.deltaHeld = [] → fget RAS_STATUS_AUDIT_STK s = 0 →
      let reported := fun t : State => fget RAS_STATUS_AUDIT_STK t = 1 ∧ fget RAS_STATUS_AUDIT_CODE t = code.toNat
      (2 ≤ code.toNat → code.toNat ≤ 5 → Completes (.conservationAudit [(code, unit)]) s (fun t => reported t ∧ t.mgt.stopped = true
        ∧ fget RAS_STATUS_FATAL_INT_STK t = 1 ∧ fget GLB_PKG_STATUS_FAULT t = 1))
      ∧ (6 ≤ code.toNat → code.toNat ≤ 9 → compAt unit.toNat s = some c → c.state ≠ .failed → s.img.staged = none →
          Completes (.conservationAudit [(code, unit)]) s (fun t => reported t ∧ failed unit.toNat t ∧ Counted (RAS_ERR_CNT 10) 1 s t)))
  ∧ (∀ (src : Src) (v : BitVec 64) (c : Comp) (s : State), isManagement src = true → v.toNat < 2 ^ 7 → fget RAS_FAIL_CMD_FAIL s = 0 →
      let slot := v.toNat % 64
      (compAt slot s = some c → c.state ≠ .failed → s.img.staged = none → s.prt.deltaHeld = [] → c.members = [myNode s] →
        Completes (.failCmd src v) s (fun t => failed slot t ∧ Counted (RAS_ERR_CNT 10) 1 s t ∧ RaisedC 0x0010 c.cmpId s t
          ∧ (∀ d ∈ t.slc.descs, d.slot = slot → d.phase = .finished ∨ d.phase = .skipped)))
      ∧ (compAt slot s = none → Completes (.failCmd src v) s (fun t => fget RAS_FAIL_CMD_SLOT t = slot
          ∧ Counted GLB_IGNORED_WRITE_CNT 1 s t ∧ SameBut [.regs] s t)))

/-- R472, R473, R475 to R478, R486 and R488. What a signature verifies is the opaque `Config.sigValid` within `sigAccepted`. -/
def Obligations.SignedCommandsAndSessions : Prop :=
  let rejected := fun (s t : State) => Counted (SEC_EVENT_CNT 1) 1 s t ∧ RegsBut [SEC_EVENT_CNT 1] s t
    ∧ t.out = s.out ++ [.record "VENDOR_DEFINED_RESPONSE" [1]] ∧ SameBut [.regs, .out] s t
  let used := fun (c : SigCmd) (s t : State) => t.sec.nonces = s.sec.nonces ++ [natLe 32 c.nonce.toNat]
    ∧ t.out = s.out ++ [.record "VENDOR_DEFINED_RESPONSE" [0]]
  (∀ (c : SigCmd) (slot : BitVec 8) (ecdsa mldsa : List Byte) (s : State), s.mgt.fwUp = true → fget SEC_STATUS_IMGKEY s < 2 ^ 8 →
      Completes (.slotWrite c slot ecdsa mldsa) s (fun t =>
        if sigAccepted 1 c (natLe 1 slot.toNat ++ ecdsa ++ mldsa) (fget SEC_STATUS_IMGKEY s == 0) s = true ∧ slot.toNat ≤ 3
            ∧ imgKeyState slot.toNat s = 0 ∧ ecdsa.length = 97 ∧ mldsa.length = 2592
        then used c s t ∧ imgKeyState slot.toNat t = 1 ∧ kget? t.sec.imgKeys slot.toNat = some (ecdsa, mldsa)
          ∧ (∀ i < 4, i ≠ slot.toNat → imgKeyState i t = imgKeyState i s) ∧ RegsBut [SEC_STATUS_IMGKEY] s t ∧ SameBut [.regs, .sec, .out] s t
        else rejected s t)
      ∧ Completes (.slotRevoke c slot) s (fun t =>
        if sigAccepted 2 c (natLe 1 slot.toNat) false s = true ∧ slot.toNat ≤ 3 ∧ imgKeyState slot.toNat s = 1 ∧ 1 < (activeSlots s).length
        then used c s t ∧ imgKeyState slot.toNat t = 2 ∧ (∀ i < 4, i ≠ slot.toNat → imgKeyState i t = imgKeyState i s)
          ∧ RegsBut [SEC_STATUS_IMGKEY] s t ∧ SameBut [.regs, .sec, .out] s t
        else rejected s t)
      ∧ Completes (.setRequirePq c) s (fun t => if sigAccepted 3 c [] false s = true
        then used c s t ∧ fget SEC_STATUS_REQUIRE_PQ t = 1 ∧ t.sec.otpPq = true ∧ RegsBut [SEC_STATUS_REQUIRE_PQ] s t ∧ SameBut [.regs, .sec, .out] s t
        else rejected s t)
      ∧ Completes (.debugUnlock c) s (fun t => if sigAccepted 4 c [] false s = true
        then if fget SEC_STATUS_DEBUG_UNLOCKED s = 1 then used c s t ∧ SameBut [.sec, .out] s t
          else fget SEC_STATUS_DEBUG_UNLOCKED t = 1 ∧ fget SEC_STATUS_UNLOCK_STK t = 1 ∧ t.sec.keys = [] ∧ fget SEC_KEY_LIVE t = 0
            ∧ t.sec.tap = true ∧ (∀ a, byteAt a t = 0) ∧ (∀ p, isWritten p t = false) ∧ t.hv = {} ∧ fget BRL_STATUS_UNLOCKED_SEEN t = 1
            ∧ (s.comps = [] → s.mgt.subs = [] → s.img.staged = none → s.img.deltaPhase = .idle → used c s t
                ∧ fget SEC_STATUS_UNLOCK_CNT t = min 255 (s.lr.cur.unlocks + 1) ∧ Logged 0x0D 0 (s.lr.cur.unlocks + 1) s t ∧ RaisedC 0x0050 0 s t)
        else rejected s t))
  ∧ (∀ (r : Requester) (own : Option Nat) (index : BitVec 8) (s : State), s.mgt.fwUp = true →
      ((own = none ∧ ∃ b, r = .mgmt b) ∨ (∃ p q k, r = .doe p q ∧ doeEntry p q.toNat s = some k ∧ fget (PRT_STATUS_ROLE p) s = 1
          ∧ own = some (fget (PRT_AGENT_SLOT p k) s))) →
      Completes (.getMeasurements r index) s (fun t => SameBut [.out] s t ∧ t.out = s.out ++ [match measurement own index.toNat s with
          | some b => .record "MEASUREMENTS" ((b ++ Config.signature 1 b).map (·.toNat))
          | none => .record "SPDM_ERROR_INVALID_REQUEST" []])
      ∧ Completes (.keyExchange r) s (fun t => t.sec.sessions = s.sec.sessions + 1 ∧ t.out = s.out ++ [.record "KEY_EXCHANGE_RSP" []]
        ∧ SameBut [.sec, .out] s t))
  ∧ (∀ (p : Fin 24) (q : BitVec 16) (index : BitVec 8) (s : State), s.mgt.fwUp = true → doeEntry p q.toNat s = none →
      let dropped := fun t : State => Counted (SEC_EVENT_CNT 1) 1 s t ∧ RegsBut [SEC_EVENT_CNT 1] s t ∧ SameBut [.regs] s t
      Completes (.getMeasurements (.doe p q) index) s dropped ∧ Completes (.keyExchange (.doe p q)) s dropped)
  ∧ (∀ own s, measurement own 4 s = some (natLe 8 s.img.serial ++ s.sec.chain)
      ∧ measurement own 6 s = own.map (fun slot => compBlock slot s)
      ∧ (∀ i, 0x10 ≤ i → i ≤ 0x4F → measurement none i s = some (compBlock (i - 0x10) s) ∧ (own ≠ none → measurement own i s = none)))

/-- R493 to R496, R500, R502 and R503. -/
def Obligations.BerylCountersAndTime : Prop :=
  (∀ s : State, s.brl.on = true → s.comps.Pairwise (fun a b => a.slot ≠ b.slot) → Completes .meterTick s (fun t =>
      Counted BRL_ELAPSED 1 s t ∧ SameBut [.regs, .brl] s t ∧ RegsBut [BRL_ELAPSED, BRL_CIVIL, BRL_STATUS_CIVIL_VALID] s t
      ∧ (∀ d, s.brl.declared = some d → d < 2 ^ 64 → fget BRL_CIVIL t = d ∧ t.brl.declared = none)
      ∧ (s.brl.declared = none → fget BRL_STATUS_CIVIL_VALID s = 1 →
          if fget BRL_CIVIL s + 1 < civilMs 2400 1 1 0 0 0 0 then fget BRL_CIVIL t = fget BRL_CIVIL s + 1
          else fget BRL_CIVIL t = 0 ∧ fget BRL_STATUS_CIVIL_VALID t = 0)
      ∧ ∀ c ∈ s.comps, ∀ m, kget? s.brl.meters c.slot = some m → ∃ n, kget? t.brl.meters c.slot = some n ∧ n.since = m.since + 1
          ∧ n.lfLost = (m.lfLost || fget BRL_STATUS_LFREF_LOST s == 1)
          ∧ (∀ i, n.counts[i]? = (m.counts[i]?).map (fun x => match i with
              | 0 => if c.state = CState.failed then x else min (x + 1) (2 ^ 64 - 1)
              | 1 => if c.state = CState.failed then min (x + 1) (2 ^ 64 - 1) else x
              | 2 => min (x + c.nearBytes / frameBytes) (2 ^ 64 - 1)
              | 3 => min (x + c.farBytes / frameBytes) (2 ^ 64 - 1)
              | 4 => min (x + c.harvestReserve / frameBytes) (2 ^ 64 - 1)
              | _ => x))))
  ∧ (∀ (slot : Fin 64) (e : Fin 6) (n lines : Nat) (m : Meter) (s : State), s.brl.on = true → kget? s.brl.meters slot = some m →
      Completes (.meterTokens slot [(e, n)] lines) s (fun t => SameBut [.brl] s t ∧ (∀ k, k ≠ slot.val → kget? t.brl.meters k = kget? s.brl.meters k)
        ∧ ∃ y, kget? t.brl.meters slot = some y ∧ ∀ i, y.counts[i]? = (m.counts[i]?).map (fun x =>
            if i = 5 + e.val then min (x + n) (2 ^ 64 - 1) else if i = 11 then min (x + lines) (2 ^ 64 - 1) else x)))
  ∧ (∀ s : State, s.brl.on = true → Completes .checkpoint s (fun t => SameBut [.brl] s t ∧ t.brl.check.meters = s.brl.meters
      ∧ t.brl.check.sealCnt = fget BRL_COUNTS_SEAL_CNT s ∧ t.brl.check.decls = fget BRL_COUNTS_TIME_DECL_CNT s
      ∧ t.brl.check.reportSeq = s.brl.reportSeq ∧ t.brl.journal.length = s.brl.journal.length + 1 ∧ t.brl.jseq = s.brl.jseq + 1))
  ∧ (∀ (fw : List Byte) (s : State), s.brl.on = false → s.brl.check.sealCnt < 2 ^ 32 - 1 → s.brl.check.decls < 2 ^ 32 →
      Completes (.berylPowerUp fw) s (fun t => t.brl.on = true ∧ t.brl.fwDigest = fw ∧ t.brl.reportSeq = s.brl.check.reportSeq
        ∧ fget BRL_STATUS_POWER_EPOCH t = (fget BRL_STATUS_POWER_EPOCH s + 1) % 2 ^ 32
        ∧ [BRL_STATUS_CIVIL_VALID, BRL_STATUS_DISCONTINUITY, BRL_ELAPSED, BRL_CIVIL].map (fun f => fget f t) = [0, 1, 0, 0]
        ∧ fget BRL_COUNTS_TIME_DECL_CNT t = s.brl.check.decls
        ∧ fget BRL_COUNTS_SEAL_CNT t = s.brl.check.sealCnt + (if s.brl.fwDigest = [] ∨ s.brl.fwDigest = fw then 0 else 1)
        ∧ (∀ k m, kget? s.brl.check.meters k = some m → kget? t.brl.meters k = some { m with lastCut := 0, gap := true })
        ∧ SameBut [.regs, .brl] s t))
  ∧ (∀ s : State, s.brl.on = true → Completes .berylWatchdog s (fun t => t.brl = { s.brl with restarting := true }
      ∧ Counted (BRL_EVENTS 1) 1 s t ∧ RegsBut [BRL_EVENTS 1] s t ∧ SameBut [.regs, .brl] s t))
  ∧ (∀ s : State, (s.brl.deferred = [] → Completes .berylRestartDone s (fun t => t.brl = { s.brl with restarting := false } ∧ SameBut [.brl] s t))
      ∧ (∀ slot c m, s.brl.deferred = [slot] → compAt slot s = some c → kget? s.brl.meters c.slot = some m →
          Completes .berylRestartDone s (fun t => t.brl.restarting = false ∧ t.brl.deferred = [] ∧ t.brl.reportSeq = s.brl.reportSeq + 1
            ∧ (∃ b, t.out = s.out ++ [.record "REPORT" b]) ∧ SameBut [.regs, .brl, .out] s t)))
  ∧ (∀ (y : BitVec 16) (mo d h mi se : BitVec 8) (ms : BitVec 16) (s : State), s.brl.on = true →
      let r := civilCheck y.toNat mo.toNat d.toNat h.toNat mi.toNat se.toNat ms.toNat
      (r = 0 ↔ 1970 ≤ y.toNat ∧ y.toNat ≤ 2399 ∧ 1 ≤ mo.toNat ∧ mo.toNat ≤ 12 ∧ 1 ≤ d.toNat ∧ d.toNat ≤ monthDays y.toNat mo.toNat
        ∧ h.toNat ≤ 23 ∧ mi.toNat ≤ 59 ∧ se.toNat ≤ 59 ∧ ms.toNat ≤ 999)
      ∧ Completes (.setCivilTime y mo d h mi se ms) s (fun t => t.out = s.out ++ [.answer 0 r []]
        ∧ (r ≠ 0 → Counted (BRL_EVENTS 0) 1 s t ∧ RegsBut [BRL_EVENTS 0] s t ∧ SameBut [.regs, .out] s t)
        ∧ (r = 0 → fget BRL_STATUS_CIVIL_VALID t = 1 ∧ fget BRL_STATUS_DISCONTINUITY t = 0 ∧ Counted BRL_COUNTS_TIME_DECL_CNT 1 s t
            ∧ t.brl.declared = some (civilMs y.toNat mo.toNat d.toNat h.toNat mi.toNat se.toNat ms.toNat)
            ∧ t.brl.jseq = s.brl.jseq + 2 ∧ SameBut [.regs, .out, .brl] s t)))

/-- R499, R505 to R508 and R521. What a signature is made of is the opaque `Config.signature`. -/
def Obligations.BerylReports : Prop :=
  let cut := fun (kind : Nat) (c : Comp) (m : Meter) (s : State) =>
    let b := reportBody kind (s.brl.reportSeq + 1) c m s
    ({ seq := s.brl.reportSeq + 1, kind, bytes := b ++ (Config.signature 2 b ++ List.replicate 96 0).take 96 } : Report)
  let meterCut := fun (c : Comp) (m : Meter) (s t : State) => t.brl.reportSeq = s.brl.reportSeq + 1 ∧ Counted (BRL_EVENTS 3) 1 s t
    ∧ kget? t.brl.meters c.slot = some { m with lastCut := fget BRL_ELAPSED s, gap := false, lfLost := false }
    ∧ (∀ k, k ≠ c.slot → kget? t.brl.meters k = kget? s.brl.meters k)
  (∀ (slot : Fin 64) (c : Comp) (m : Meter) (s : State), compAt slot s = some c → c.slot = slot → kget? s.brl.meters slot = some m → s.brl.on = true →
      s.brl.held.length < 4096 →
      (0 < periodMs c s → periodMs c s ≤ m.since → Completes (.periodicReport slot) s (fun t => t.brl.held = s.brl.held ++ [cut 1 c m s]
        ∧ t.brl.pushed = s.brl.pushed ++ [cut 1 c m s] ∧ meterCut c { m with since := m.since - periodMs c s } s t
        ∧ (s.mgt.fwUp = true → t.out = s.out ++ s.brl.subs.map (fun e => .record "REPORT" (e.2 :: (cut 1 c m s).bytes.map (·.toNat))))
        ∧ SameBut [.regs, .brl, .out] s t))
      ∧ (∀ r : Requester, ((∃ b, r = .mgmt b ∧ s.mgt.fwUp = true) ∨ (∃ p q k, r = .doe p q ∧ doeEntry p q.toNat s = some k
            ∧ fget (PRT_AGENT_SLOT p k) s = slot)) →
        (s.brl.restarting = false → Completes (.onDemand r slot) s (fun t => t.brl.held = s.brl.held ++ [cut 2 c m s] ∧ meterCut c m s t
          ∧ t.out = s.out ++ [.record "REPORT" ((cut 2 c m s).bytes.map (·.toNat))] ∧ SameBut [.regs, .brl, .out] s t))
        ∧ (s.brl.restarting = true → Completes (.onDemand r slot) s (fun t => t.brl.deferred = s.brl.deferred ++ [slot.val] ∧ SameBut [.brl] s t))))
  ∧ (∀ (slot : Fin 64) (p : Fin 24) (q : BitVec 16) (s : State), s.brl.on = true →
      (∀ k, doeEntry p q.toNat s = some k → fget (PRT_AGENT_SLOT p k) s ≠ slot → exec (.onDemand (.doe p q) slot) s = .next s)
      ∧ (doeEntry p q.toNat s = none → Completes (.onDemand (.doe p q) slot) s (fun t => Counted (SEC_EVENT_CNT 1) 1 s t ∧ SameBut [.regs] s t)))
  ∧ (∀ s : State, s.brl.on = true → s.mgt.fwUp = true → Completes .reportPushRetry s (fun t => SameBut [.out] s t
      ∧ t.out = s.out ++ s.brl.pushed.flatMap (fun r => s.brl.subs.map (fun e => .record "REPORT" (e.2 :: r.bytes.map (·.toNat))))))
  ∧ (∀ (m : MgtReq) (seq : BitVec 64) (count : BitVec 8) (s : State), MgtUp m s → s.brl.on = true → s.brl.restarting = false →
      Completes (.reportRead m seq count) s (fun t => SameBut [.out, .mgt] s t ∧ ∃ l : List Report,
        l.Perm ((s.brl.held ++ s.brl.finals).filter (fun r => r.seq ≥ seq.toNat)) ∧ l.Pairwise (fun a b => a.seq ≤ b.seq)
        ∧ t.out = s.out ++ [.answer m.tag.toNat 0 ((l.take (min 8 count.toNat)).flatMap (·.bytes))])
      ∧ Completes (.reportAck m seq) s (fun t => t.brl.held = s.brl.held.filter (fun r => r.seq > seq.toNat)
        ∧ t.brl.finals = s.brl.finals.filter (fun r => r.seq > seq.toNat) ∧ t.brl.pushed = s.brl.pushed.filter (fun r => r.seq > seq.toNat)
        ∧ t.brl.meters = s.brl.meters ∧ t.brl.journal = s.brl.journal ∧ t.out = s.out ++ [.answer m.tag.toNat 0 []]
        ∧ fget BRL_STATUS_FINAL_HELD t = t.brl.finals.length % 2 ^ 9 ∧ SameBut [.regs, .brl, .out, .mgt] s t)
      ∧ Completes (.journalExtract m seq count) s (fun t => SameBut [.out, .mgt] s t
        ∧ let run := ((s.brl.journal.drop seq.toNat).take count.toNat).flatten
          t.out = s.out ++ [.answer m.tag.toNat 0 (run ++ Config.signature 2 run)]))

/-- R510 to R513, R517, R532 and R533; R52 for the delta, R420 for what is latched, R529 for the record. -/
def Obligations.ChargeAndFirmware : Prop :=
  let claimed := fun (h : Nat) (s t : State) => fget MGT_CHARGE_HOLDER t = 3 - h ∧ fget MGT_CHARGE_EPOCH t = (fget MGT_CHARGE_EPOCH s + 1) % 2 ^ 32
    ∧ t.mgt.believes = h ∧ t.mgt.resuming = 1 ∧ t.mgt.fwUp = false ∧ t.sec.sessions = 0
  let restarted := fun (s t : State) => t.mgt.resuming = 2 ∧ t.mgt.fwUp = false ∧ t.sec.sessions = 0 ∧ fget MGT_CHARGE_HOLDER t = fget MGT_CHARGE_HOLDER s
    ∧ fget MGT_CHARGE_EPOCH t = fget MGT_CHARGE_EPOCH s
  (∀ (east : Bool) (epoch : BitVec 32) (s : State), let h := if east then 2 else 1
      (fget MGT_CHARGE_HOLDER s = h → fget MGT_CHARGE_EPOCH s = epoch.toNat → exec (.chargeHeartbeat east epoch) s = .next s)
      ∧ (fget MGT_CHARGE_HOLDER s ≠ h → s.mgt.believes = h → Completes (.chargeHeartbeat east epoch) s (fun t => t.mgt.believes = 0
          ∧ fget MGT_CHARGE_DISAGREE_STK t = 1 ∧ Counted (MGT_EVENT_CNT 4) 1 s t ∧ RaisedC 0x0060 0 s t ∧ BytesKept s t)))
  ∧ (∀ (h : Nat) (s : State), fget MGT_CHARGE_HOLDER s = h → (h = 1 ∨ h = 2) → s.mgt.fwUp = true →
      (halfHealthy (3 - h) s = true → Completes .chargeWatchdog s (fun t => claimed h s t ∧ SameBut [.regs, .mgt, .sec] s t)
        ∧ (∀ m : MgtReq, m.secured = true → Completes (.failover m) s (fun t => claimed h s t ∧ t.out = s.out ++ [.answer m.tag.toNat 0 []]))
        ∧ (∀ (src : Src) (v : BitVec 64), isManagement src = true → v.toNat % 2 = 0 → fget MGT_FW_FAILOVER s = 0 →
            Completes (.mgtFwFailover src v) s (claimed h s)))
      ∧ (halfHealthy (3 - h) s = false → Completes .chargeWatchdog s (fun t => restarted s t ∧ SameBut [.mgt, .sec] s t)
        ∧ (∀ m : MgtReq, m.secured = true → Completes (.failover m) s (fun t => t.out = s.out ++ [.answer m.tag.toNat 3 []]
            ∧ t.mgt.fwUp = true ∧ fget MGT_CHARGE_HOLDER t = h)))
      ∧ (∀ m : MgtReq, m.secured = true → Completes (.fwRestart m) s (fun t => restarted s t ∧ t.out = s.out ++ [.answer m.tag.toNat 0 []]))
      ∧ (∀ (src : Src) (v : BitVec 64), isManagement src = true → v.toNat / 2 % 2 = 0 → fget MGT_FW_RESTART s = 0 →
          Completes (.restartWrite src v) s (fun t => restarted s t ∧ fget MGT_FW_RESTART t = 1)))
  ∧ (∀ s : State, s.mgt.nmis = 0 → s.mgt.latched = [] →
      (s.img.deltaPhase ≠ .draining → ∀ r ∈ [(1, 3, 0x0062), (2, 2, 0x0061)], s.mgt.resuming = r.1 → Completes .takeover s (fun t => t.mgt.fwUp = true
        ∧ t.mgt.resuming = 0 ∧ Counted (MGT_EVENT_CNT r.2.1) 1 s t ∧ RaisedC r.2.2 0 s t ∧ t.img = s.img ∧ BytesKept s t
        ∧ (r.1 = 2 → fget MGT_FW_RESTART t = 0)))
      ∧ (s.img.deltaPhase = .draining → s.mgt.resuming ≠ 0 → s.prt.deltaHeld = [] → Completes .takeover s (fun t => t.mgt.fwUp = true
        ∧ t.img.deltaPhase = .idle ∧ t.img.staged = none ∧ ∀ c ∈ t.comps, c.state ≠ .changing)))
  ∧ (∀ (wOk eOk pOk mOk : Bool) (s : State), s.mgt.fwUp = false → s.pwr.aon = true → (fget CLK_STATUS_PLAN s = 1 ∨ fget CLK_STATUS_PLAN s = 2) →
      fget GLB_PKG_STATUS_THERMTRIP s = 0 →
      let healthy := fun t : State => fget MGT_CHARGE_W_HEALTHY t = b2n wOk ∧ fget MGT_CHARGE_E_HEALTHY t = b2n eOk
      (wOk = false → eOk = false → Completes (.onyxFirmwareStart wOk eOk pOk mOk) s (fun t => healthy t ∧ t.mgt.fwUp = false ∧ SameBut [.regs] s t))
      ∧ (fget MGT_CHARGE_HOLDER s = 0 → wOk ≠ eOk → Completes (.onyxFirmwareStart wOk eOk pOk mOk) s (fun t => healthy t ∧ t.mgt.fwUp = true
          ∧ fget MGT_CHARGE_HOLDER t = (if wOk then 1 else 2) ∧ fget MGT_CHARGE_EPOCH t = (fget MGT_CHARGE_EPOCH s + 1) % 2 ^ 32
          ∧ [LRC_STATUS_PRIMARY_OK, LRC_STATUS_MIRROR_OK].map (fun f => fget f t) = [b2n pOk, b2n mOk]
          ∧ (pOk = true → mOk = true → let a := (newestSlot s.lr.primary).getD {}; let b := (newestSlot s.lr.mirror).getD {}
              t.lr.cur.coldResets = max a.coldResets b.coldResets + 1 ∧ t.lr.cur.unlocks = max a.unlocks b.unlocks
              ∧ t.lr.cur.burstUsed = max a.burstUsed b.burstUsed)
          ∧ fget SEC_STATUS_REQUIRE_PQ t = b2n s.sec.otpPq ∧ BytesKept s t))
      ∧ (∀ h, fget MGT_CHARGE_HOLDER s = h → ((h = 1 ∧ wOk = true) ∨ (h = 2 ∧ eOk = true)) →
          Completes (.onyxFirmwareStart wOk eOk pOk mOk) s (fun t => healthy t ∧ t.mgt.fwUp = true ∧ fget MGT_CHARGE_HOLDER t = h
            ∧ fget MGT_CHARGE_EPOCH t = fget MGT_CHARGE_EPOCH s ∧ t.lr = s.lr ∧ BytesKept s t)))
  ∧ (∀ s : State, s.mgt.fwUp = true → s.mgt.postOk = false → fget GLB_PKG_STATUS_PWRGD_MAIN s = 1 → (fget CLK_STATUS_PLAN s = 1 ∨ fget CLK_STATUS_PLAN s = 2) →
      Completes (.powerOnSelfTest [] false) s (fun t => t = { s with mgt := { s.mgt with postOk := true } })
      ∧ Completes (.powerOnSelfTest [] true) s (fun t => t.mgt.stopped = true ∧ t.mgt.postOk = false ∧ fget RAS_STATUS_FATAL_INT_STK t = 1)
      ∧ (∀ (u : Fin 32) (pos : Fin 130) (i : Nat), let p := u.val * 128 + pos.val
        pos.val < 128 → kmem s.pan.failed (u.val * 130 + pos.val) = false → physPan p s = pos.val → kget? s.pan.subst p = none → adoptedFor p s = none →
        freeSpare u s = some i → s.pan.pieces = [] → Completes (.powerOnSelfTest [(u, pos)] false) s (fun t => t.mgt.postOk = true
          ∧ kmem t.pan.failed (u.val * 130 + pos.val) = true ∧ fget (spVault u i) t = pos.val ∧ kget? t.pan.subst p = none ∧ BytesKept s t)))

/-- R519, R520, R522 to R527, R529 and R531. -/
def Obligations.ManagementServices : Prop :=
  let answered := fun (m : MgtReq) (code : Nat) (data : List Byte) (s t : State) => t.out = s.out ++ [.answer m.tag.toNat code data]
  let sweeps := fun (mask : Nat) (s t : State) => ∃ w, t.mgt.sweep = some w ∧ w.now ≠ [] ∧ w.now.length ≤ 16 ∧ (∀ e ∈ w.now, e.2 = 0)
    ∧ (∀ x ∈ w.now.map (·.1), x ^^^ 1 ∉ w.now.map (·.1))
    ∧ (∀ x, (x ∈ w.now.map (·.1) ∨ x ∈ w.todo) ↔ (x < 32 ∧ bitAt mask x = true ∧ fget (TIL_PAN_SPARE_RETIRED x) s ≠ 1))
  (∀ (m : MgtReq) (s : State), MgtUp m s →
      (∀ (eid slot : BitVec 8), slot.toNat ≤ 1 →
        Completes (.eventSubscribe m false eid slot) s (fun t => answered m 0 [] s t ∧ t.mgt.subs = kput s.mgt.subs slot.toNat eid.toNat ∧ SameBut [.mgt, .out] s t)
        ∧ Completes (.eventSubscribe m true eid slot) s (fun t => answered m 0 [] s t ∧ t.brl.subs = kput s.brl.subs slot.toNat eid.toNat
            ∧ t.mgt.subs = s.mgt.subs ∧ SameBut [.mgt, .brl, .out] s t))
      ∧ (∀ (seq : BitVec 64) (count : BitVec 8), Completes (.eventRead m seq count) s (fun t => SameBut [.mgt, .out] s t ∧ t.mgt.events = s.mgt.events
          ∧ (if count.toNat ≤ 32 then answered m 0 (((s.mgt.events.filter (fun e => e.seq ≥ seq.toNat)).take count.toNat).flatMap eventBytes) s t
             else answered m 2 [] s t)))
      ∧ (∀ seq : BitVec 64, Completes (.eventAck m seq) s (fun t => answered m 0 [] s t ∧ t.mgt.events = s.mgt.events.filter (fun e => e.seq > seq.toNat)
          ∧ fget MGT_EVENT_STATUS_QUEUED t = t.mgt.events.length % 2 ^ MGT_EVENT_STATUS_QUEUED.width
          ∧ fget GLB_PKG_STATUS_ALERT t = b2n (t.mgt.events.any (fun e => bitAt (fget MGT_ALERT_EN_SEV_EN s) e.severity)
              || fget MGT_IMAGE_RESULT_IMAGE_FAIL_STK s == 1) ∧ SameBut [.regs, .mgt, .out] s t))
      ∧ (∀ off len : BitVec 32, Completes (.lrRead m off len) s (fun t => SameBut [.mgt, .out] s t
          ∧ (if len.toNat ≤ 1024 ∧ off.toNat + len.toNat ≤ 0x800000
             then answered m 0 ((List.range len.toNat).map (fun i => recordByte (off.toNat + i) s)) s t else answered m 2 [] s t)))
      ∧ (∀ mask : BitVec 32, (s.mgt.sweep ≠ none → Completes (.marginSweep m mask) s (fun t => answered m 1 [] s t ∧ t.mgt.sweep = s.mgt.sweep))
          ∧ (s.mgt.sweep = none → (∃ x < 32, bitAt mask.toNat x = true ∧ fget (TIL_PAN_SPARE_RETIRED x) s ≠ 1) →
              Completes (.marginSweep m mask) s (fun t => answered m 0 [] s t ∧ sweeps mask.toNat s t ∧ SameBut [.mgt, .out] s t))))
  ∧ (∀ s : State, s.mgt.fwUp = true → fget MGT_FW_MARGIN_PERIOD_D s ≠ 0 → s.mgt.sweep = none → (∃ x < 32, fget (TIL_PAN_SPARE_RETIRED x) s ≠ 1) →
      Completes .marginPeriod s (fun t => sweeps 0xFFFFFFFF s t ∧ SameBut [.mgt] s t))
  ∧ (∀ (u : Fin 32) (k : Nat) (good : Bool) (s : State), s.mgt.sweep = some { todo := [], now := [(u.val, k)] } → s.pan.pieces = [] →
      fget (TIL_ADOPT_SELFTEST u) s = 0 → fget (TIL_ADOPT_SELFTEST (u.val ^^^ 1)) s = 0 →
      let mv := if good then 120 else if k = 0 then 0xFE else 10 * (k - 1)
      Completes (.marginSlot [(u, good)]) s (fun t => BytesKept s t ∧ if good = true ∧ k < 12 then t.mgt.sweep = some { todo := [], now := [(u.val, k + 1)] }
        else t.mgt.sweep = none ∧ kgetD t.lr.cur.margin u.val 0xFF = mv ∧ RaisedC 0x0027 0 s t
          ∧ Logged 0x0B u (mv + bitsOf (fget (PWR_TILE_CODE (u.val / 8)) s) (8 * (u.val % 8)) 8 * 256) s t))
  ∧ (∀ s : State, s.mgt.fwUp = true →
      Completes .eventPushRetry s (fun t => t.out = s.out ++ s.mgt.events.flatMap (fun e => s.mgt.subs.map (fun x => .push x.2 e)) ∧ SameBut [.out] s t)
      ∧ (let now := (s.regs.filter (fun e => e.2 == 1 && accessOf e.1 == some .w1cHu)).map (·.1)
         let rose := now.filter (fun k => !kmem s.mgt.stuck k && !namedSticky k)
         (rose = [] → Completes .stickySample s (fun t => t.mgt = { s.mgt with stuck := now.map (fun k => (k, ())) } ∧ SameBut [.mgt] s t))
         ∧ (∀ k, rose = [k] → Completes .stickySample s (fun t => t.mgt.stuck = now.map (fun k => (k, ()))
              ∧ Raised 0x0070 (regComp (k / 64 * 8) s) (blockIndex (k / 64 * 8)) s t ∧ BytesKept s t)))
      ∧ (∀ (beryl : Bool) (kind : BitVec 8) (data : List Byte), Completes (.mctpControl beryl kind data) s (fun t =>
          if kind = 0 then t.out = s.out ++ [.record "MCTP_CONTROL_RESPONSE" [b2n beryl]] ∧ SameBut [.out] s t
          else if kind.toNat = 1 ∨ kind.toNat = 5 ∨ kind.toNat = 6 ∨ kind.toNat = 0x7F then t = s
          else Counted (MGT_EVENT_CNT 5) 1 s t ∧ RegsBut [MGT_EVENT_CNT 5] s t ∧ SameBut [.regs] s t))
      ∧ (∀ readings : List Byte, Completes (.pldmMonitoring readings) s (fun t => SameBut [.out] s t ∧ t.out = s.out ++ [.record "PLDM_SENSORS"
          (readings.map (·.toNat) ++ [fget CLK_STATUS_PLAN s, fget PWR_STATUS_LIMIT s] ++ (List.range 64).map (fun k => fget (CMP_STATE_STATE k) s))]))
      ∧ (∀ b : List Byte, b.length ≤ 0x200000 →
          Completes (.pldmFirmwareUpdate 0 b) s (fun t => t = { s with img := { s.img with slotA := b } })
          ∧ Completes (.pldmFirmwareUpdate 1 b) s (fun t => t = { s with img := { s.img with slotB := b } })
          ∧ Completes (.pldmFirmwareUpdate 2 b) s (fun t => t = { s with mgt := { s.mgt with onyxFw := b } })
          ∧ Completes (.pldmFirmwareUpdate 3 b) s (fun t => t = { s with mgt := { s.mgt with berylFw := b } })))
  ∧ (∀ (secs : Nat) (logic dram : Int) (s : State), Completes (.summaryWrite secs logic dram) s (fun t =>
      t.lr.cur.poweredS = s.lr.cur.poweredS + secs ∧ fget LRC_POWERED_S t = (s.lr.cur.poweredS + secs) % 2 ^ 64
      ∧ kgetD t.lr.cur.logicBins (tempBin logic) 0 = min (2 ^ 32 - 1) (kgetD s.lr.cur.logicBins (tempBin logic) 0 + secs)
      ∧ kgetD t.lr.cur.dramBins (tempBin dram) 0 = min (2 ^ 32 - 1) (kgetD s.lr.cur.dramBins (tempBin dram) 0 + secs)
      ∧ t.lr.cur.maxLogic = max s.lr.cur.maxLogic logic.toNat ∧ t.lr.cur.maxDram = max s.lr.cur.maxDram dram.toNat
      ∧ t.lr.cur.seq = s.lr.cur.seq + 1 ∧ t.lr.log = s.lr.log ∧ SameBut [.regs, .lr] s t))
  ∧ (∀ s : State, Completes (.mirrorSync true) s (fun t => kget? t.lr.mirror (s.lr.cur.seq % 16) = some s.lr.cur ∧ t.lr.mirrored = s.lr.cur.logNext
        ∧ SameBut [.lr] s t)
      ∧ Completes (.mirrorSync false) s (fun t => fget LRC_STATUS_MIRROR_ERR_STK t = 1 ∧ RegsBut [LRC_STATUS_MIRROR_ERR_STK] s t ∧ SameBut [.regs] s t))

/-- R534 and R537 for the election, R538 for duplicates, R539 and R540 for discovery and forming, R541 for the timer, R547 for a late joiner, R518 for the epoch. The layout of Incarnation packets is assumption 17 of the log. -/
def Obligations.PoolFormation : Prop :=
  let me := fun s : State => myNode s
  let fresh := fun (b : Best) (s : State) => b.strap ≠ myStrap s ∨ b.node = me s
  (∀ (p : Fin 24) (h : Hdr) (s : State), HelloHeard 1 h s →
      (∀ b, helloBest h = some b → fget FAB_NODE_JOINED s = 0 →
        (helloEpoch h = 0 → fresh b s → s.mgt.election.best.all (fun x => better b x) = true →
          Completes (.elect p h) s (fun t => t.mgt = { s.mgt with election := { s.mgt.election with best := some b } } ∧ SameBut [.mgt, .fab, .out] s t
            ∧ ∀ x, fabricPorts s = [x] → HelloSent 1 0 x s t))
        ∧ (helloEpoch h = 0 → s.mgt.election.best.all (fun x => better b x) = false →
          (fresh b s → Completes (.elect p h) s (fun t => t = s))
          ∧ (¬ fresh b s → fget FAB_FORM_DUP_STRAP_STK s = 0 → Completes (.elect p h) s (fun t => fget FAB_FORM_DUP_STRAP_STK t = 1
              ∧ RaisedC 0x0024 0 s t ∧ t.mgt.election = s.mgt.election ∧ t.fab = s.fab)))
        ∧ (helloEpoch h ≠ 0 → fresh b s → (fget FAB_FORM_PHASE s ≠ 3 ∨ fget FAB_FORM_MASTER_NODE s ≠ b.node) → PortClear p s →
          Completes (.elect p h) s (fun t => t.mgt = { s.mgt with election := { s.mgt.election with best := some b, heard := max s.mgt.election.heard (helloEpoch h) } }
            ∧ t.fab.parent = some p.val ∧ [FAB_NODE_MASTER, FAB_FORM_MASTER_NODE, FAB_FORM_PHASE].map (fun f => fget f t) = [0, b.node, 3]
            ∧ RegsBut [FAB_NODE_MASTER, FAB_FORM_MASTER_NODE, FAB_FORM_PHASE] s t ∧ SentOn p (helloPkt 3 b.node 0 t) s t ∧ SameBut [.regs, .mgt, .fab, .out] s t)))
      ∧ (helloBest h = none → fget FAB_NODE_JOINED s = 1 → Completes (.elect p h) s (fun t => SameBut [.fab, .out] s t ∧ HelloSent 1 0 p s t)))
  ∧ (∀ (entropyOk : Bool) (s : State), s.img.configured = true → fget FAB_NODE_JOINED s = 0 → (fget FAB_FORM_PHASE s = 1 ∨ fget FAB_FORM_PHASE s = 5) →
      isCandidate s = true → s.mgt.election.best = some ⟨myStrap s, me s⟩ → me s < 4096 →
      let master := fun t : State => [FAB_NODE_MASTER, FAB_FORM_MASTER_NODE, FAB_FORM_STANDBY_NODE, FAB_FORM_LEVEL, FAB_FORM_POOL_EPOCH].map (fun f => fget f t)
        = [1, me s, me s, 0, (s.mgt.election.heard + 1) % 2 ^ 16]
      (s.img.poolSize ≠ 1 → Completes (.electionConcluded entropyOk) s (fun t => master t ∧ fget FAB_FORM_PHASE t = 2 ∧ SameBut [.regs, .fab, .out] s t
          ∧ ∀ x, fabricPorts s = [x] → HelloSent 2 1 x s t))
      ∧ (s.img.poolSize = 1 → NothingWaits s → Completes (.electionConcluded entropyOk) s (fun t => master t ∧ fget FAB_NODE_JOINED t = 1 ∧ fget FAB_FORM_PHASE t = 4
          ∧ fget FAB_NODE_INCARNATION t = nextInc (fget (peerIncFld (me s)) s) ∧ t.comps = s.comps ∧ BytesKept s t)))
  ∧ (∀ (p : Fin 24) (h : Hdr) (b : Best) (s : State), HelloHeard 2 h s → helloBest h = some b →
      (fget FAB_NODE_JOINED s = 1 → Completes (.probe p h) s (fun t => t = s))
      ∧ (fget FAB_NODE_JOINED s = 0 → fget FAB_NODE_MASTER s = 0 → s.mgt.election.probed = false → fabricPorts s = [p.val] → PortClear p s → b.node ≠ me s →
          (∀ x ∈ s.fab.held, x.node ≠ b.node) → kget? s.fab.reporters b.node = none →
          [FAB_ROUTE_UNREACHABLE b.node, FAB_ROUTE_USE_ALT b.node, FAB_ROUTE_PRIM_VALID b.node].map (fun f => fget f s) = [0, 0, 0] →
          Completes (.probe p h) s (fun t => t.mgt.election = { s.mgt.election with best := some b, heard := max s.mgt.election.heard (helloEpoch h), probed := true }
            ∧ t.fab.parent = some p.val ∧ [FAB_FORM_MASTER_NODE, FAB_FORM_LEVEL, FAB_FORM_PHASE].map (fun f => fget f t) = [b.node, h.oparg.toNat, 2]
            ∧ RegsBut [FAB_FORM_MASTER_NODE, FAB_FORM_LEVEL, FAB_FORM_PHASE] s t ∧ SameBut [.regs, .mgt, .fab, .out] s t
            ∧ AllSentOn p ([0, 1].map (fun i => sentPkt 0x88 b.node 0 0 0 (reportOf i s).1 (reportOf i s).2 false s)) s t)))
  ∧ (∀ (entropyOk : Bool) (n : Nat) (s : State), fget FAB_NODE_MASTER s = 1 → fget FAB_NODE_JOINED s = 0 → fget FAB_FORM_PHASE s = 2 → reportedNodes s = [n] →
      n < 4096 → n ≠ me s → me s < 4096 → NothingWaits s →
      Completes (.discoveryEnd [] entropyOk) s (fun t => fget FAB_NODE_JOINED t = 1 ∧ fget FAB_FORM_PHASE t = 4
        ∧ fget FAB_FORM_STANDBY_NODE t = (if (kget? s.mgt.election.reports (2 * n)).any (fun e => e.1 % 2 == 1) then n else me s)
        ∧ fget (peerIncFld n) t = nextInc (fget (peerIncFld n) s) ∧ fget FAB_NODE_INCARNATION t = nextInc (fget (peerIncFld (me s)) s)
        ∧ (s.img.poolSize > 2 → Raised 0x0026 0 0xFFFF s t) ∧ t.comps = s.comps ∧ BytesKept s t))
  ∧ (∀ (p : Fin 24) (h : Hdr) (entropyOk : Bool) (b : Best) (s : State), HelloHeard 4 h s → helloBest h = some b →
      (fget FAB_NODE_JOINED s = 1 → Completes (.formed p h entropyOk) s (fun t => t = s))
      ∧ (fget FAB_NODE_JOINED s = 0 → fget FAB_NODE_INCARNATION s = 0 → fget FAB_FORM_DUP_NODE_STK s = 0 →
          Completes (.formed p h entropyOk) s (fun t => fget FAB_FORM_DUP_NODE_STK t = 1 ∧ RaisedC 0x0024 0 s t ∧ fget FAB_NODE_JOINED t = 0 ∧ t.comps = s.comps))
      ∧ (fget FAB_NODE_JOINED s = 0 → fget FAB_NODE_INCARNATION s ≠ 0 → NothingWaits s → Completes (.formed p h entropyOk) s (fun t =>
          [FAB_NODE_JOINED, FAB_FORM_PHASE, FAB_FORM_MASTER_NODE, FAB_FORM_POOL_EPOCH].map (fun f => fget f t) = [1, 4, b.node, helloEpoch h]
          ∧ fget FAB_NODE_INCARNATION t = fget FAB_NODE_INCARNATION s ∧ t.comps = s.comps ∧ BytesKept s t
          ∧ ∀ x, (fabricPorts s).filter (· ≠ p.val) = [x] → HelloSent 4 0 x s t)))
  ∧ (∀ s : State,
      (fget FAB_NODE_JOINED s = 1 → Completes .formTimeout s (fun t => t = s))
      ∧ (s.img.configured = true → fget FAB_NODE_JOINED s = 0 → fget FAB_FORM_PHASE s ≠ 5 → Completes .formTimeout s (fun t =>
          fget FAB_FORM_FORM_FAIL_STK t = 1 ∧ fget FAB_FORM_PHASE t = 5 ∧ RegsBut [FAB_FORM_FORM_FAIL_STK, FAB_FORM_PHASE] s t ∧ SameBut [.regs] s t))
      ∧ (∀ x, fget FAB_FORM_PHASE s = 5 → fabricPorts s = [x] → Completes .electResend s (fun t => HelloSent 1 0 x s t ∧ SameBut [.fab, .out] s t))
      ∧ (fget FAB_FORM_PHASE s ≠ 5 → Completes .electResend s (fun t => t = s)))
  ∧ (∀ (p : Fin 24) (h : Hdr) (q : Nat) (s : State), HelloHeard 3 h s → fget FAB_NODE_MASTER s = 1 → fget FAB_NODE_JOINED s = 1 →
      let n := h.src.toNat
      n ≠ me s → me s < 4096 → (∀ d < 4096, d ≠ n → d ≠ me s → fget (peerIncFld d) s = 0) → PortClear q s → (∀ x ∈ s.fab.held, x.node ≠ n) →
      [FAB_ROUTE_USE_ALT n, FAB_ROUTE_PRIM_VALID n, FAB_ROUTE_PRIMARY n].map (fun f => fget f s) = [0, 1, q] →
      Completes (.joinReq p h []) s (fun t => fget (peerIncFld n) t = nextInc (fget (peerIncFld n) s) ∧ fget (FAB_ROUTE_UNREACHABLE n) t = 0
        ∧ RegsBut [peerIncFld n, FAB_ROUTE_UNREACHABLE n, FAB_FORM_NODES] s t ∧ SameBut [.regs, .fab, .out] s t
        ∧ AllSentOn q [incPkt n (me s) 0 0 t, incPkt n n (fget FAB_NODE_INCARNATION s) 0 t, helloPkt 4 n 0 t] s t))

/-- R518 and R519 for the copies and the takeover, R544 for the seal, R483, R545 and R546 for assertions and the fresh hash. -/
def Obligations.PoolStateAndRetention : Prop :=
  let answered := fun (m : MgtReq) (code : Nat) (s t : State) => t.out = s.out ++ [.answer m.tag.toNat code []]
  (∀ s : State, Completes (.stateCopy false) s (fun t => t = s)
      ∧ (s.mgt.fwUp = true →
        let m := { s.mgt with copySeq := s.mgt.copySeq + 1, copyJseq := s.mgt.jseq, journalled := 0 }
        let sb := fget FAB_FORM_STANDBY_NODE s
        (fget FAB_NODE_MASTER s ≠ 1 ∨ fget FAB_NODE_JOINED s ≠ 1 ∨ sb = myNode s → Completes (.stateCopy true) s (fun t => t = { s with mgt := m }))
        ∧ (fget FAB_NODE_MASTER s = 1 → fget FAB_NODE_JOINED s = 1 → sb ≠ myNode s → ∀ p,
            let w := fget FAB_FORM_POOL_EPOCH s + fget GLB_PKG_STATUS_STRAP_ID s * 2 ^ 16 + sb * 2 ^ 26
            let pkt := fun kind => sentPkt 0x88 sb 0 0 0 (kind * 2 ^ 12) [BitVec.ofNat 128 w, BitVec.ofNat 128 m.copySeq] false s
            PathReady (pkt 1) p s → Completes (.stateCopy true) s (fun t => t.mgt = m ∧ AllSentOn p [pkt 1, pkt 2] s t ∧ SameBut [.mgt, .fab, .out] s t))))
  ∧ (∀ s : State, fget FAB_NODE_JOINED s = 1 → fget FAB_NODE_STANDBY s = 1 →
      let old := fget FAB_FORM_MASTER_NODE s
      old ≠ myNode s → old < 4096 → myNode s < 4096 → s.engs.colls = [] → s.fab.tags = [] → s.mem.tier = [] → s.comps = [] →
      Completes .standbyMasterTakeover s (fun t => [FAB_NODE_MASTER, FAB_NODE_STANDBY, FAB_FORM_MASTER_NODE, FAB_FORM_STANDBY_NODE, FAB_FORM_LEVEL,
          FAB_FORM_POOL_EPOCH, FAB_ROUTE_UNREACHABLE old].map (fun f => fget f t) = [1, 0, myNode s, myNode s, 0, (fget FAB_FORM_POOL_EPOCH s + 1) % 2 ^ 16, 1]
        ∧ t.mgt.election.best = some ⟨myStrap s, myNode s⟩ ∧ RaisedC 0x0026 0 s t ∧ BytesKept s t))
  ∧ (∀ (m : MgtReq) (id : BitVec 16) (s : State), MgtUp m s → Completes (.retainSeal m id) s (fun t => SameBut [.mgt, .out] s t ∧
      match compById id.toNat s with
      | none => answered m 2 s t ∧ t.mgt.sealing = s.mgt.sealing
      | some _ => t.out = s.out ∧ t.mgt.sealing = s.mgt.sealing ++ [{ cmpId := id.toNat, tag := m.tag.toNat }]))
  ∧ (∀ (id : BitVec 16) (x : Sealing) (c : Comp) (s : State), s.mgt.sealing.find? (fun x => x.cmpId == id.toNat) = some x → compById id.toNat s = some c →
      let k : Seal := { keySlot := c.keySlot, incarnation := fget FAB_NODE_INCARNATION s, expanders := usedExpanders c s, nearBytes := c.nearBytes, farBytes := c.farBytes, digest := capacityDigest c s }
      Completes (.sealHashDone id) s (fun t => SameBut [.mgt, .out] s t ∧ t.mgt.sealing = s.mgt.sealing.erase x
        ∧ if x.dirty then t.out = s.out ++ [.answer x.tag 1 []] ∧ t.mgt.seals = s.mgt.seals
          else t.out = s.out ++ [.answer x.tag 0 (sealBytes c k s ++ Config.signature 0 (sealBytes c k s))] ∧ kget? t.mgt.seals id.toNat = some k))
  ∧ (∀ (m : MgtReq) (id inc : BitVec 16) (digest : List Byte) (s : State), MgtUp m s →
      (fget FAB_NODE_JOINED s ≠ 1 → assertedExpanders id.toNat inc.toNat digest s = [] →
        let l := s.img.waiting.filter (fun c => c.cmpId == id.toNat && keyHeld c s)
        (l = [] → Completes (.retainAssert m id inc digest) s (fun t => answered m 0 s t ∧ kget? t.mgt.asserts id.toNat = some (inc.toNat, digest) ∧ SameBut [.mgt, .out] s t))
        ∧ (∀ c, l = [c] → c.slot < 64 → kmem s.mgt.hashing c.slot = false → bitAt (fget MGT_RETAIN_OK s) c.slot = false →
            Completes (.retainAssert m id inc digest) s (fun t => answered m 0 s t ∧ kget? t.mgt.asserts id.toNat = some (inc.toNat, digest) ∧ BytesKept s t
              ∧ if sealMatches c inc.toNat digest s then kmem t.mgt.hashing c.slot = true ∧ fget MGT_RETAIN_FAIL t = fget MGT_RETAIN_FAIL s
                else t.mgt.hashing = s.mgt.hashing ∧ bitAt (fget MGT_RETAIN_FAIL t) c.slot = true)))
      ∧ (fget FAB_NODE_JOINED s = 1 → assertedExpanders id.toNat inc.toNat digest s = [] →
          Completes (.retainAssert m id inc digest) s (fun t => answered m 3 s t ∧ t.mgt.asserts = s.mgt.asserts ∧ SameBut [.mgt, .out] s t))
      ∧ (∀ port, assertedExpanders id.toNat inc.toNat digest s = [port] → fget FAB_NODE_JOINED s = 1 → s.mem.allotted = true →
          Completes (.retainAssert m id inc digest) s (fun t => answered m 0 s t ∧ t.mgt.asserts = s.mgt.asserts ∧ SameBut [.mem, .mgt, .out] s t
            ∧ t.mem.expanders = s.mem.expanders.map (fun e => if e.port = port then { e with up := true, retainWait := false, kept := true } else e))))
  ∧ (∀ (slot : Fin 64) (entropyOk : Bool) (c : Comp) (a : Nat × List Byte) (s : State), s.img.waiting.find? (fun c => c.slot == slot.val) = some c →
      kmem s.mgt.hashing slot.val = true → kget? s.mgt.asserts c.cmpId = some a → c.farBytes = 0 → fget FAB_NODE_JOINED s ≠ 1 →
      (a.2 = capacityDigest c s → Completes (.retainHashDone slot entropyOk) s (fun t => kmem t.mgt.hashing slot.val = false
          ∧ bitAt (fget MGT_RETAIN_OK t) slot = true ∧ RegsBut [MGT_RETAIN_OK] s t ∧ SameBut [.regs, .mgt] s t))
      ∧ (a.2 ≠ capacityDigest c s → Completes (.retainHashDone slot entropyOk) s (fun t => kmem t.mgt.hashing slot.val = false
          ∧ bitAt (fget MGT_RETAIN_FAIL t) slot = true ∧ RegsBut [MGT_RETAIN_FAIL] s t ∧ SameBut [.regs, .mgt, .mem] s t
          ∧ ∀ f ∈ c.near, ∀ b, b / frameBytes = f → byteAt b t = 0)))

/-- The layouts of R149 and R153, written and read: no bit of a packet is dropped between two Slosins. -/
def Obligations.FlitsReadBack : Prop :=
  ∀ (k : Pkt) (seq ack ret : Nat),
    (pktSlots k).length = k.hdr.pktLen.toNat → (pktSlots k).length ≤ 15 →
    (hdrSlots k.hdr.opc.toNat k.hdr.pktLen.toNat = 1 → k.hdr.pa = 0 ∧ k.hdr.paRsvd = 0 ∧ k.hdr.oparg = 0) →
    let raw := mkFlit seq ack 1 ret (pktSlots k)
    flitOk raw true = true ∧ flitType raw = 1 ∧ bitsOf raw.toNat 0 12 = seq % 4096 ∧ bitsOf raw.toNat 12 12 = ack % 4096
    ∧ bitsOf raw.toNat 28 12 = ret % 4096 ∧ takePkts 16 (flitSlots raw) = ([k], [])
end

