-- ==== Sys2Proof/Laws/Flit.lean ====
section
/-! SUPPORT. What a flit that this Slosin sends reads as at the far end (R149, R151). -/

namespace Sys2Proof.Machine

theorem crc64Bit_lt (c : Nat) : crc64Bit c < 2 ^ 64 := by
  unfold crc64Bit
  split
  · exact Nat.xor_lt_two_pow (Nat.mod_lt _ (by decide)) (by decide)
  · exact Nat.mod_lt _ (by decide)

theorem crc64Byte_lt (c : Nat) (b : Byte) : crc64Byte c b < 2 ^ 64 := by
  unfold crc64Byte
  rw [List.range_succ, List.foldl_append]
  simp only [List.foldl_cons, List.foldl_nil]
  exact crc64Bit_lt _

theorem crc64_lt (l : List Byte) : crc64 l < 2 ^ 64 := by
  unfold crc64
  rcases l.eq_nil_or_concat with rfl | ⟨r, b, rfl⟩
  · decide
  · simp only [List.concat_eq_append, List.foldl_append, List.foldl_cons, List.foldl_nil]
    exact crc64Byte_lt _ _

theorem slotsNat_lt (l : List (BitVec 128)) : slotsNat l < 2 ^ (128 * l.length) := by
  induction l with
  | nil => decide
  | cons a r ih =>
    have h := a.isLt
    have e : 2 ^ (128 * (a :: r).length) = 2 ^ 128 * 2 ^ (128 * r.length) := by
      rw [List.length_cons, ← Nat.pow_add]
      congr 1
      omega
    rw [e]
    simp only [slotsNat]
    have : 2 ^ 128 * slotsNat r + 2 ^ 128 ≤ 2 ^ 128 * 2 ^ (128 * r.length) := by
      rw [← Nat.mul_succ]
      exact Nat.mul_le_mul_left _ ih
    omega

/-- The header of a flit as `mkFlit` builds it. -/
def flitHead (seq ack typ ret : Nat) : Nat := seq % 4096 + ack % 4096 * 2 ^ 12 + typ % 16 * 2 ^ 24 + ret % 4096 * 2 ^ 28

theorem flitHead_lt (seq ack typ ret : Nat) : flitHead seq ack typ ret < 2 ^ 40 := by
  unfold flitHead
  omega

/-- What stands below the CRC of a flit. -/
def flitLow (seq ack typ ret : Nat) (l : List (BitVec 128)) : Nat := flitHead seq ack typ ret + slotsNat (l.take 15) * 2 ^ 64

theorem flitLow_lt (seq ack typ ret : Nat) (l : List (BitVec 128)) : flitLow seq ack typ ret l < 2 ^ 1984 := by
  have h1 := flitHead_lt seq ack typ ret
  have h2 : slotsNat (l.take 15) < 2 ^ 1920 := by
    refine Nat.lt_of_lt_of_le (slotsNat_lt _) (Nat.pow_le_pow_right (by decide) ?_)
    have := List.length_take_le 15 l
    omega
  unfold flitLow
  have e : (2 : Nat) ^ 1984 = 2 ^ 1920 * 2 ^ 64 := by rw [← Nat.pow_add]
  rw [e]
  generalize (2 : Nat) ^ 1920 = m at h2
  have h3 : slotsNat (l.take 15) * 2 ^ 64 + 2 ^ 64 ≤ m * 2 ^ 64 := by
    rw [← Nat.succ_mul]
    exact Nat.mul_le_mul_right _ h2
  omega

theorem mkFlit_toNat (seq ack typ ret : Nat) (l : List (BitVec 128)) :
    (mkFlit seq ack typ ret l).toNat = flitLow seq ack typ ret l + crc64 (natLe 248 (flitLow seq ack typ ret l)) * 2 ^ 1984 := by
  have h1 := flitLow_lt seq ack typ ret l
  have h2 := crc64_lt (natLe 248 (flitLow seq ack typ ret l))
  show (BitVec.ofNat 2048 (flitLow seq ack typ ret l + crc64 (natLe 248 (flitLow seq ack typ ret l)) * 2 ^ 1984)).toNat = _
  rw [BitVec.toNat_ofNat]
  refine Nat.mod_eq_of_lt ?_
  have e : (2 : Nat) ^ 2048 = 2 ^ 64 * 2 ^ 1984 := by rw [← Nat.pow_add]
  rw [e]
  generalize (2 : Nat) ^ 1984 = m at h1
  generalize crc64 (natLe 248 (flitLow seq ack typ ret l)) = c at h2
  have : c * m + m ≤ 2 ^ 64 * m := by
    rw [← Nat.succ_mul]
    exact Nat.mul_le_mul_right _ h2
  omega

/-- Fields of the low 64 bits of a flit are those of its header. -/
theorem mkFlit_bits (seq ack typ ret lo n : Nat) (l : List (BitVec 128)) (h : lo + n ≤ 64) :
    bitsOf (mkFlit seq ack typ ret l).toNat lo n = bitsOf (flitHead seq ack typ ret) lo n := by
  have e : (mkFlit seq ack typ ret l).toNat
      = flitHead seq ack typ ret + (slotsNat (l.take 15) + crc64 (natLe 248 (flitLow seq ack typ ret l)) * 2 ^ 1920) * 2 ^ 64 := by
    rw [mkFlit_toNat]
    have e2 : (2 : Nat) ^ 1984 = 2 ^ 1920 * 2 ^ 64 := by rw [← Nat.pow_add]
    rw [e2, flitLow, Nat.add_mul, Nat.mul_assoc, Nat.add_assoc]
  rw [e]
  generalize slotsNat (l.take 15) + crc64 (natLe 248 (flitLow seq ack typ ret l)) * 2 ^ 1920 = x
  generalize flitHead seq ack typ ret = y
  unfold bitsOf
  have e3 : (2 : Nat) ^ 64 = 2 ^ lo * (2 ^ n * 2 ^ (64 - lo - n)) := by
    rw [← Nat.pow_add, ← Nat.pow_add]
    exact congrArg (2 ^ ·) (by omega)
  rw [e3, Nat.mul_comm x, Nat.mul_assoc, Nat.mul_assoc,
    Nat.add_mul_div_left _ _ (Nat.pow_pos (by decide)), Nat.add_mul_mod_self_left]

/-- A flit that this Slosin builds passes the receiver's checks. -/
theorem flitOk_mkFlit (seq ack typ ret : Nat) (l : List (BitVec 128)) (h : typ < 4) : flitOk (mkFlit seq ack typ ret l) true = true := by
  have h1 := flitLow_lt seq ack typ ret l
  have h2 := crc64_lt (natLe 248 (flitLow seq ack typ ret l))
  have hn := mkFlit_toNat seq ack typ ret l
  have hm : (mkFlit seq ack typ ret l).toNat % 2 ^ 1984 = flitLow seq ack typ ret l := by
    rw [hn, Nat.add_mul_mod_self_right, Nat.mod_eq_of_lt h1]
  have hc : bitsOf (mkFlit seq ack typ ret l).toNat 1984 64 = crc64 (natLe 248 (flitLow seq ack typ ret l)) := by
    unfold bitsOf
    rw [hn, Nat.add_mul_div_right _ _ (Nat.pow_pos (by decide)), Nat.div_eq_of_lt h1, Nat.zero_add, Nat.mod_eq_of_lt h2]
  have ht : bitsOf (flitHead seq ack typ ret) 24 4 = typ := by
    unfold bitsOf flitHead
    omega
  have hr : bitsOf (flitHead seq ack typ ret) 52 12 = 0 := by
    have := flitHead_lt seq ack typ ret
    unfold bitsOf
    omega
  unfold flitOk
  simp only [hm, hc, mkFlit_bits _ _ _ _ _ _ _ (show 24 + 4 ≤ 64 by decide), mkFlit_bits _ _ _ _ _ _ _ (show 52 + 12 ≤ 64 by decide), ht, hr]
  simp [h]

/-- The type of a flit that this Slosin builds. -/
theorem flitType_mkFlit (seq ack typ ret : Nat) (l : List (BitVec 128)) (h : typ < 4) : flitType (mkFlit seq ack typ ret l) = typ := by
  unfold flitType
  rw [mkFlit_bits _ _ _ _ _ _ _ (by decide)]
  unfold bitsOf flitHead
  omega

/-- The sequence number of a flit that this Slosin builds. -/
theorem flitSeq_mkFlit (seq ack typ ret : Nat) (l : List (BitVec 128)) : bitsOf (mkFlit seq ack typ ret l).toNat 0 12 = seq % 4096 := by
  rw [mkFlit_bits _ _ _ _ _ _ _ (by decide)]
  unfold bitsOf flitHead
  omega

/-- Slot `i` of a number made of slots. -/
theorem slotsNat_slot (l : List (BitVec 128)) (i : Nat) : slotsNat l / 2 ^ (128 * i) % 2 ^ 128 = (l.getD i 0).toNat := by
  induction l generalizing i with
  | nil => simp [slotsNat]
  | cons a r ih =>
    have ha := a.isLt
    cases i with
    | zero =>
      simp only [slotsNat, Nat.mul_zero, Nat.pow_zero, Nat.div_one, List.getD_cons_zero]
      rw [Nat.add_mul_mod_self_left, Nat.mod_eq_of_lt ha]
    | succ k =>
      simp only [slotsNat, List.getD_cons_succ]
      rw [show 128 * (k + 1) = 128 + 128 * k by omega, Nat.pow_add, ← Nat.div_div_eq_div_mul,
        Nat.add_mul_div_left _ _ (Nat.pow_pos (by decide)), Nat.div_eq_of_lt ha, Nat.zero_add]
      exact ih k

/-- The slots of a flit that this Slosin builds: those it was given, then padding. -/
theorem flitSlots_mkFlit (seq ack typ ret : Nat) (l : List (BitVec 128)) :
    flitSlots (mkFlit seq ack typ ret l) = (List.range 15).map (fun i => (l.take 15).getD i 0) := by
  unfold flitSlots
  refine List.map_congr_left (fun i hi => ?_)
  have hi : i < 15 := List.mem_range.1 hi
  apply BitVec.eq_of_toNat_eq
  rw [BitVec.toNat_ofNat, ← slotsNat_slot, mkFlit_toNat, flitLow]
  have hh := flitHead_lt seq ack typ ret
  generalize flitHead seq ack typ ret = y at hh
  generalize slotsNat (l.take 15) = x
  generalize crc64 (natLe 248 _) = c
  have e2 : (2 : Nat) ^ 1984 = 2 ^ (128 * i) * (2 ^ 128 * 2 ^ (1792 - 128 * i)) * 2 ^ 64 := by
    rw [← Nat.pow_add, ← Nat.pow_add, ← Nat.pow_add]
    exact congrArg (2 ^ ·) (by omega)
  have e3 : y + x * 2 ^ 64 + c * 2 ^ 1984 = y + (x + 2 ^ (128 * i) * (2 ^ 128 * 2 ^ (1792 - 128 * i) * c)) * 2 ^ 64 := by
    rw [e2, Nat.add_mul, ← Nat.add_assoc, Nat.mul_comm c, Nat.mul_right_comm _ (2 ^ 64) c, Nat.mul_assoc (2 ^ (128 * i))]
  have hy : y < 2 ^ 64 := Nat.lt_of_lt_of_le hh (by decide)
  rw [e3, Nat.pow_add, ← Nat.div_div_eq_div_mul, Nat.add_mul_div_right _ _ (Nat.pow_pos (by decide)), Nat.div_eq_of_lt hy, Nat.zero_add,
    Nat.add_mul_div_left _ _ (Nat.pow_pos (by decide)), Nat.mul_assoc, Nat.add_mul_mod_self_left]

end Sys2Proof.Machine
end

