-- ==== Sys2Proof/Laws/Map.lean ====
section
/-! SUPPORT. The laws of sparse tables: read after write, and the canonical form that every operation keeps. -/

namespace Sys2Proof.Machine

variable {α : Type}

@[simp] theorem kget?_nil (n : Nat) : kget? ([] : KMap α) n = none := rfl

@[simp] theorem kget?_kput_same (m : KMap α) (n : Nat) (v : α) : kget? (kput m n v) n = some v := by
  induction m with
  | nil => simp [kput, kget?]
  | cons e r ih =>
    obtain ⟨k, w⟩ := e
    simp only [kput]
    split
    · simp [kget?]
    · split
      · simp [kget?]
      · rename_i h; simp [kget?, h, ih]

theorem kget?_kput_ne (m : KMap α) {n k : Nat} (v : α) (h : k ≠ n) : kget? (kput m n v) k = kget? m k := by
  induction m with
  | nil => simp [kput, kget?, h]
  | cons e r ih =>
    obtain ⟨j, w⟩ := e
    simp only [kput]
    split
    · simp [kget?, h]
    · split
      · rename_i h2; subst h2; simp [kget?, h]
      · simp only [kget?, ih]

theorem kget?_eq_none {m : KMap α} {n : Nat} (h : ∀ e ∈ m, e.1 ≠ n) : kget? m n = none := by
  induction m with
  | nil => rfl
  | cons x r ih =>
    rw [kget?, if_neg (fun e => h x (by simp) e.symm)]
    exact ih (fun e he => h e (by simp [he]))

@[simp] theorem kget?_kdel_same (m : KMap α) (n : Nat) : kget? (kdel m n) n = none := by
  induction m with
  | nil => rfl
  | cons e r ih =>
    obtain ⟨k, w⟩ := e
    simp only [kdel]
    split
    · exact ih
    · rename_i h; simp [kget?, h, ih]

theorem kget?_kdel_ne (m : KMap α) {n k : Nat} (h : k ≠ n) : kget? (kdel m n) k = kget? m k := by
  induction m with
  | nil => rfl
  | cons e r ih =>
    obtain ⟨j, w⟩ := e
    simp only [kdel]
    split
    · rename_i h2; subst h2; simp [kget?, h, ih]
    · simp only [kget?, ih]

@[simp] theorem kgetD_kset_same [DecidableEq α] (m : KMap α) (n : Nat) (v d : α) : kgetD (kset m n v d) n d = v := by
  unfold kset kgetD
  split
  · rename_i h; simp [h]
  · simp

theorem kget?_kset_ne [DecidableEq α] (m : KMap α) {n k : Nat} (v d : α) (h : k ≠ n) : kget? (kset m n v d) k = kget? m k := by
  unfold kset
  split
  · exact kget?_kdel_ne m h
  · exact kget?_kput_ne m v h

theorem kgetD_kset_ne [DecidableEq α] (m : KMap α) {n k : Nat} (v d e : α) (h : k ≠ n) : kgetD (kset m n v d) k e = kgetD m k e := by
  unfold kgetD
  rw [kget?_kset_ne m v d h]

@[simp] theorem kmem_kin_same (m : KSet) (n : Nat) (b : Bool) : kmem (kin m n b) n = b := by
  unfold kin kmem
  cases b <;> simp

theorem kmem_kin_ne (m : KSet) {n k : Nat} (b : Bool) (h : k ≠ n) : kmem (kin m n b) k = kmem m k := by
  unfold kin kmem
  cases b <;> simp [kget?_kput_ne, kget?_kdel_ne, h]

/-! ### The canonical form -/

/-- Every key of a table that lists a key or not lies among the old ones and the new. -/
theorem kput_mem {m : KMap α} {n : Nat} {v : α} {e : Nat × α} (h : e ∈ kput m n v) : e = (n, v) ∨ e ∈ m := by
  induction m with
  | nil => simpa [kput] using h
  | cons x r ih =>
    obtain ⟨k, w⟩ := x
    simp only [kput] at h
    split at h
    · rcases List.mem_cons.1 h with h | h
      · exact Or.inl h
      · exact Or.inr h
    · split at h
      · rcases List.mem_cons.1 h with h | h
        · exact Or.inl h
        · exact Or.inr (List.mem_cons_of_mem _ h)
      · rcases List.mem_cons.1 h with h | h
        · exact Or.inr (h ▸ List.mem_cons_self)
        · rcases ih h with h | h
          · exact Or.inl h
          · exact Or.inr (List.mem_cons_of_mem _ h)

theorem kdel_mem {m : KMap α} {n : Nat} {e : Nat × α} (h : e ∈ kdel m n) : e ∈ m := by
  induction m with
  | nil => exact h
  | cons x r ih =>
    obtain ⟨k, w⟩ := x
    simp only [kdel] at h
    split at h
    · exact List.mem_cons_of_mem _ (ih h)
    · rcases List.mem_cons.1 h with h | h
      · exact h ▸ List.mem_cons_self
      · exact List.mem_cons_of_mem _ (ih h)

theorem kput_sorted {m : KMap α} (h : ksorted m) (n : Nat) (v : α) : ksorted (kput m n v) := by
  induction m with
  | nil => simp [kput, ksorted]
  | cons x r ih =>
    obtain ⟨k, w⟩ := x
    obtain ⟨h1, h2⟩ := List.pairwise_cons.1 h
    simp only [kput]
    split
    · rename_i hlt
      refine List.pairwise_cons.2 ⟨?_, h⟩
      intro a ha
      rcases List.mem_cons.1 ha with rfl | ha
      · exact hlt
      · exact Nat.lt_trans hlt (h1 a ha)
    · split
      · rename_i heq; subst heq
        exact List.pairwise_cons.2 ⟨h1, h2⟩
      · rename_i hlt hne
        refine List.pairwise_cons.2 ⟨?_, ih h2⟩
        intro a ha
        rcases kput_mem ha with rfl | ha
        · show k < n
          omega
        · exact h1 a ha

theorem kdel_sorted {m : KMap α} (h : ksorted m) (n : Nat) : ksorted (kdel m n) := by
  induction m with
  | nil => exact h
  | cons x r ih =>
    obtain ⟨k, w⟩ := x
    obtain ⟨h1, h2⟩ := List.pairwise_cons.1 h
    simp only [kdel]
    split
    · exact ih h2
    · exact List.pairwise_cons.2 ⟨fun a ha => h1 a (kdel_mem ha), ih h2⟩

theorem kset_sorted [DecidableEq α] {m : KMap α} (h : ksorted m) (n : Nat) (v d : α) : ksorted (kset m n v d) := by
  unfold kset
  split
  · exact kdel_sorted h n
  · exact kput_sorted h n v

theorem kin_sorted {m : KSet} (h : ksorted m) (n : Nat) (b : Bool) : ksorted (kin m n b) := by
  unfold kin
  split
  · exact kput_sorted h n ()
  · exact kdel_sorted h n

theorem kkeep_sorted {m : KMap α} (h : ksorted m) (p : Nat → Bool) : ksorted (kkeep m p) := List.Pairwise.filter _ h

end Sys2Proof.Machine
end

