-- ==== Sys2Proof/Laws/State.lean ====
section
/-! SUPPORT. What the primitive updates leave of the state, and what a register field reads after a write. -/

namespace Sys2Proof.Machine

/-! ### Register fields -/

@[simp] theorem fget_fset_same (f : Fld) (v : Nat) (s : State) : fget f (fset f v s) = v % 2 ^ f.width := by
  simp [fget, fset]

theorem fget_fset_ne {f g : Fld} (v : Nat) (s : State) (h : f.key ≠ g.key) : fget f (fset g v s) = fget f s := by
  simp only [fget, fset]
  exact kgetD_kset_ne _ _ _ _ h

theorem fget_fset_of_lt {f : Fld} {v : Nat} (s : State) (h : v < 2 ^ f.width) : fget f (fset f v s) = v := by
  rw [fget_fset_same, Nat.mod_eq_of_lt h]

theorem fget_regs {f : Fld} {s t : State} (h : s.regs = t.regs) : fget f s = fget f t := by
  simp only [fget, h]

@[simp] theorem fget_reset (f : Fld) : fget f State.reset = f.reset := rfl

/-! ### fset -/

@[simp] theorem fset_mem (f : Fld) (v : Nat) (s : State) : (fset f v s).mem = s.mem := rfl
@[simp] theorem fset_hv (f : Fld) (v : Nat) (s : State) : (fset f v s).hv = s.hv := rfl
@[simp] theorem fset_coh (f : Fld) (v : Nat) (s : State) : (fset f v s).coh = s.coh := rfl
@[simp] theorem fset_fab (f : Fld) (v : Nat) (s : State) : (fset f v s).fab = s.fab := rfl
@[simp] theorem fset_slc (f : Fld) (v : Nat) (s : State) : (fset f v s).slc = s.slc := rfl
@[simp] theorem fset_xl (f : Fld) (v : Nat) (s : State) : (fset f v s).xl = s.xl := rfl
@[simp] theorem fset_mgt (f : Fld) (v : Nat) (s : State) : (fset f v s).mgt = s.mgt := rfl
@[simp] theorem fset_prt (f : Fld) (v : Nat) (s : State) : (fset f v s).prt = s.prt := rfl
@[simp] theorem fset_img (f : Fld) (v : Nat) (s : State) : (fset f v s).img = s.img := rfl
@[simp] theorem fset_engs (f : Fld) (v : Nat) (s : State) : (fset f v s).engs = s.engs := rfl
@[simp] theorem fset_clk (f : Fld) (v : Nat) (s : State) : (fset f v s).clk = s.clk := rfl
@[simp] theorem fset_pwr (f : Fld) (v : Nat) (s : State) : (fset f v s).pwr = s.pwr := rfl
@[simp] theorem fset_pan (f : Fld) (v : Nat) (s : State) : (fset f v s).pan = s.pan := rfl
@[simp] theorem fset_sec (f : Fld) (v : Nat) (s : State) : (fset f v s).sec = s.sec := rfl
@[simp] theorem fset_brl (f : Fld) (v : Nat) (s : State) : (fset f v s).brl = s.brl := rfl
@[simp] theorem fset_lr (f : Fld) (v : Nat) (s : State) : (fset f v s).lr = s.lr := rfl
@[simp] theorem fset_comps (f : Fld) (v : Nat) (s : State) : (fset f v s).comps = s.comps := rfl
@[simp] theorem fset_free (f : Fld) (v : Nat) (s : State) : (fset f v s).free = s.free := rfl
@[simp] theorem fset_out (f : Fld) (v : Nat) (s : State) : (fset f v s).out = s.out := rfl
@[simp] theorem fset_pending (f : Fld) (v : Nat) (s : State) : (fset f v s).pending = s.pending := rfl

/-! ### emit -/

@[simp] theorem emit_regs (o : Out) (s : State) : (emit o s).regs = s.regs := rfl
@[simp] theorem emit_mem (o : Out) (s : State) : (emit o s).mem = s.mem := rfl
@[simp] theorem emit_hv (o : Out) (s : State) : (emit o s).hv = s.hv := rfl
@[simp] theorem emit_coh (o : Out) (s : State) : (emit o s).coh = s.coh := rfl
@[simp] theorem emit_fab (o : Out) (s : State) : (emit o s).fab = s.fab := rfl
@[simp] theorem emit_slc (o : Out) (s : State) : (emit o s).slc = s.slc := rfl
@[simp] theorem emit_xl (o : Out) (s : State) : (emit o s).xl = s.xl := rfl
@[simp] theorem emit_mgt (o : Out) (s : State) : (emit o s).mgt = s.mgt := rfl
@[simp] theorem emit_prt (o : Out) (s : State) : (emit o s).prt = s.prt := rfl
@[simp] theorem emit_img (o : Out) (s : State) : (emit o s).img = s.img := rfl
@[simp] theorem emit_engs (o : Out) (s : State) : (emit o s).engs = s.engs := rfl
@[simp] theorem emit_clk (o : Out) (s : State) : (emit o s).clk = s.clk := rfl
@[simp] theorem emit_pwr (o : Out) (s : State) : (emit o s).pwr = s.pwr := rfl
@[simp] theorem emit_pan (o : Out) (s : State) : (emit o s).pan = s.pan := rfl
@[simp] theorem emit_sec (o : Out) (s : State) : (emit o s).sec = s.sec := rfl
@[simp] theorem emit_brl (o : Out) (s : State) : (emit o s).brl = s.brl := rfl
@[simp] theorem emit_lr (o : Out) (s : State) : (emit o s).lr = s.lr := rfl
@[simp] theorem emit_comps (o : Out) (s : State) : (emit o s).comps = s.comps := rfl
@[simp] theorem emit_free (o : Out) (s : State) : (emit o s).free = s.free := rfl
@[simp] theorem emit_pending (o : Out) (s : State) : (emit o s).pending = s.pending := rfl

/-! ### takeFree -/

@[simp] theorem takeFree_regs (w : Nat) (s : State) : ((takeFree w s).2).regs = s.regs := rfl
@[simp] theorem takeFree_mem (w : Nat) (s : State) : ((takeFree w s).2).mem = s.mem := rfl
@[simp] theorem takeFree_hv (w : Nat) (s : State) : ((takeFree w s).2).hv = s.hv := rfl
@[simp] theorem takeFree_coh (w : Nat) (s : State) : ((takeFree w s).2).coh = s.coh := rfl
@[simp] theorem takeFree_fab (w : Nat) (s : State) : ((takeFree w s).2).fab = s.fab := rfl
@[simp] theorem takeFree_slc (w : Nat) (s : State) : ((takeFree w s).2).slc = s.slc := rfl
@[simp] theorem takeFree_xl (w : Nat) (s : State) : ((takeFree w s).2).xl = s.xl := rfl
@[simp] theorem takeFree_mgt (w : Nat) (s : State) : ((takeFree w s).2).mgt = s.mgt := rfl
@[simp] theorem takeFree_prt (w : Nat) (s : State) : ((takeFree w s).2).prt = s.prt := rfl
@[simp] theorem takeFree_img (w : Nat) (s : State) : ((takeFree w s).2).img = s.img := rfl
@[simp] theorem takeFree_engs (w : Nat) (s : State) : ((takeFree w s).2).engs = s.engs := rfl
@[simp] theorem takeFree_clk (w : Nat) (s : State) : ((takeFree w s).2).clk = s.clk := rfl
@[simp] theorem takeFree_pwr (w : Nat) (s : State) : ((takeFree w s).2).pwr = s.pwr := rfl
@[simp] theorem takeFree_pan (w : Nat) (s : State) : ((takeFree w s).2).pan = s.pan := rfl
@[simp] theorem takeFree_sec (w : Nat) (s : State) : ((takeFree w s).2).sec = s.sec := rfl
@[simp] theorem takeFree_brl (w : Nat) (s : State) : ((takeFree w s).2).brl = s.brl := rfl
@[simp] theorem takeFree_lr (w : Nat) (s : State) : ((takeFree w s).2).lr = s.lr := rfl
@[simp] theorem takeFree_comps (w : Nat) (s : State) : ((takeFree w s).2).comps = s.comps := rfl
@[simp] theorem takeFree_out (w : Nat) (s : State) : ((takeFree w s).2).out = s.out := rfl
@[simp] theorem takeFree_pending (w : Nat) (s : State) : ((takeFree w s).2).pending = s.pending := rfl

/-! ### setByte -/

@[simp] theorem setByte_regs (a : Nat) (b : Byte) (s : State) : (setByte a b s).regs = s.regs := rfl
@[simp] theorem setByte_hv (a : Nat) (b : Byte) (s : State) : (setByte a b s).hv = s.hv := rfl
@[simp] theorem setByte_coh (a : Nat) (b : Byte) (s : State) : (setByte a b s).coh = s.coh := rfl
@[simp] theorem setByte_fab (a : Nat) (b : Byte) (s : State) : (setByte a b s).fab = s.fab := rfl
@[simp] theorem setByte_slc (a : Nat) (b : Byte) (s : State) : (setByte a b s).slc = s.slc := rfl
@[simp] theorem setByte_xl (a : Nat) (b : Byte) (s : State) : (setByte a b s).xl = s.xl := rfl
@[simp] theorem setByte_mgt (a : Nat) (b : Byte) (s : State) : (setByte a b s).mgt = s.mgt := rfl
@[simp] theorem setByte_prt (a : Nat) (b : Byte) (s : State) : (setByte a b s).prt = s.prt := rfl
@[simp] theorem setByte_img (a : Nat) (b : Byte) (s : State) : (setByte a b s).img = s.img := rfl
@[simp] theorem setByte_engs (a : Nat) (b : Byte) (s : State) : (setByte a b s).engs = s.engs := rfl
@[simp] theorem setByte_clk (a : Nat) (b : Byte) (s : State) : (setByte a b s).clk = s.clk := rfl
@[simp] theorem setByte_pwr (a : Nat) (b : Byte) (s : State) : (setByte a b s).pwr = s.pwr := rfl
@[simp] theorem setByte_pan (a : Nat) (b : Byte) (s : State) : (setByte a b s).pan = s.pan := rfl
@[simp] theorem setByte_sec (a : Nat) (b : Byte) (s : State) : (setByte a b s).sec = s.sec := rfl
@[simp] theorem setByte_brl (a : Nat) (b : Byte) (s : State) : (setByte a b s).brl = s.brl := rfl
@[simp] theorem setByte_lr (a : Nat) (b : Byte) (s : State) : (setByte a b s).lr = s.lr := rfl
@[simp] theorem setByte_comps (a : Nat) (b : Byte) (s : State) : (setByte a b s).comps = s.comps := rfl
@[simp] theorem setByte_free (a : Nat) (b : Byte) (s : State) : (setByte a b s).free = s.free := rfl
@[simp] theorem setByte_out (a : Nat) (b : Byte) (s : State) : (setByte a b s).out = s.out := rfl
@[simp] theorem setByte_pending (a : Nat) (b : Byte) (s : State) : (setByte a b s).pending = s.pending := rfl

@[simp] theorem takeFree_fst (w : Nat) (s : State) : (takeFree w s).1 = Config.freeValue w s.free := rfl
@[simp] theorem emit_out (o : Out) (s : State) : (emit o s).out = s.out ++ [o] := rfl
@[simp] theorem takeFree_free (w : Nat) (s : State) : (takeFree w s).2.free = s.free + 1 := rfl

end Sys2Proof.Machine
end

