-- ==== Sys2Proof/Laws/Memory.lean ====
section
/-! SUPPORT. Reading a byte after a write, and that every operation on memory keeps its canonical form. -/

namespace Sys2Proof.Machine

/-! ### Bytes read back -/

@[simp] theorem byteAt_setByte_same (a : Nat) (b : Byte) (s : State) : byteAt a (setByte a b s) = b := by
  simp [byteAt, setByte]

theorem byteAt_setByte_ne {a c : Nat} (b : Byte) (s : State) (h : c ≠ a) : byteAt c (setByte a b s) = byteAt c s := by
  simp only [byteAt, setByte]
  exact kgetD_kset_ne _ _ _ _ h

theorem byteAt_setBytes_outside {l : List Byte} {a c : Nat} {s : State} (h : c < a ∨ a + l.length ≤ c) :
    byteAt c (setBytes a l s) = byteAt c s := by
  induction l generalizing a s with
  | nil => rfl
  | cons b r ih =>
    have e : (b :: r).length = r.length + 1 := rfl
    rw [setBytes, ih (by omega), byteAt_setByte_ne _ _ (by omega)]

theorem byteAt_setBytes_inside {l : List Byte} {a i : Nat} {s : State} (h : i < l.length) :
    byteAt (a + i) (setBytes a l s) = l[i] := by
  induction l generalizing a i s with
  | nil => exact absurd h (Nat.not_lt_zero i)
  | cons b r ih =>
    cases i with
    | zero => rw [setBytes, byteAt_setBytes_outside (by omega)]; simp
    | succ i =>
      have e := @ih (a + 1) i (setByte a b s) (by simpa using h)
      rw [setBytes, show a + (i + 1) = a + 1 + i by omega, e]; rfl

theorem byteAt_mem {a : Nat} {s t : State} (h : s.mem.bytes = t.mem.bytes) : byteAt a s = byteAt a t := by
  simp only [byteAt, h]

/-! ### The canonical form -/

theorem Memory.wf_reset : Memory.wf State.reset.mem := by decide

theorem bytes_kset {m : KMap Byte} (h : ∀ e ∈ m, e.2 ≠ 0) (a : Nat) (b : Byte) : ∀ e ∈ kset m a b 0, e.2 ≠ 0 := by
  intro e he
  unfold kset at he
  split at he
  · exact h e (kdel_mem he)
  · rename_i hb
    rcases kput_mem he with rfl | he
    · exact hb
    · exact h e he

theorem kkeep_mem {α : Type} {m : KMap α} {p : Nat → Bool} {e : Nat × α} (h : e ∈ kkeep m p) : e ∈ m := (List.mem_filter.1 h).1

theorem setByte_wf {a : Nat} {b : Byte} {s : State} (h : Memory.wf s.mem) : Memory.wf (setByte a b s).mem :=
  ⟨kset_sorted h.1 _ _ _, bytes_kset h.2.1 a b, h.2.2⟩

theorem setBytes_wf {l : List Byte} {a : Nat} {s : State} (h : Memory.wf s.mem) : Memory.wf (setBytes a l s).mem := by
  induction l generalizing a s with
  | nil => exact h
  | cons b r ih => exact ih (setByte_wf h)

theorem setCells_wf {pl : Nat} {d : Line} {mask : BitVec 64} {s : State} (h : Memory.wf s.mem) : Memory.wf (setCells pl d mask s).mem := by
  unfold setCells
  generalize List.range 64 = l
  induction l generalizing s with
  | nil => exact h
  | cons i r ih =>
    refine ih ?_
    dsimp only
    split
    · exact setByte_wf h
    · exact h

theorem setBittern_wf {slot pl : Nat} {b : Bool} {s : State} (h : Memory.wf s.mem) : Memory.wf (setBittern slot pl b s).mem := by
  have e : (setBittern slot pl b s).mem = { s.mem with bittern := kin s.mem.bittern pl b } := by
    unfold setBittern onlyIf; dsimp only; split <;> rfl
  rw [e]
  exact ⟨h.1, h.2.1, h.2.2.1, kin_sorted h.2.2.2 _ _⟩

theorem keep_wf {m : MemS} (h : Memory.wf m) (p q r : Nat → Bool) :
    Memory.wf { m with bytes := kkeep m.bytes p, written := kkeep m.written q, bittern := kkeep m.bittern r } :=
  ⟨kkeep_sorted h.1 p, fun e he => h.2.1 e (kkeep_mem (p := p) he), kkeep_sorted h.2.2.1 q, kkeep_sorted h.2.2.2 r⟩

theorem markNever_wf {page : Nat} {s : State} (h : Memory.wf s.mem) : Memory.wf (markNever page s).mem := by
  have k := keep_wf h (fun a => a / 4096 != page) (fun _ => true) (fun l => l / 64 != page)
  exact ⟨k.1, k.2.1, kdel_sorted h.2.2.1 page, k.2.2.2⟩

theorem markNeverRange_wf {base len : Nat} {s : State} (h : Memory.wf s.mem) : Memory.wf (markNeverRange base len s).mem :=
  keep_wf h _ _ _

end Sys2Proof.Machine
end

