-- ==== Sys2Proof/Laws/Ops.lean ====
section
/-! SUPPORT. What the shared operations may change: an event, a packet on a link, a packet routed. -/

namespace Sys2Proof.Machine

theorem each_keeps {α β : Type} {l : List α} {f : α → State → State} {g : State → β} (h : ∀ a s, g (f a s) = g s) (s : State) :
    g (each l f s) = g s := by
  unfold each
  induction l generalizing s with
  | nil => rfl
  | cons a r ih => exact (ih (f a s)).trans (h a s)

/-- The state without registers, management and the output. -/
abbrev besidesEvent (s : State) : State := { s with regs := [], mgt := {}, out := [], free := 0 }

theorem event_frame (code cmpId unit data : Nat) (s : State) : besidesEvent (event code cmpId unit data s) = besidesEvent s := by
  have push : ∀ e s, besidesEvent (pushEvent e s) = besidesEvent s := by
    intro e s; unfold pushEvent; refine each_keeps (g := besidesEvent) ?_ s; intros; rfl
  have upd : ∀ s, besidesEvent (updateQueued s) = besidesEvent s := fun _ => rfl
  unfold event
  dsimp only
  split
  · rw [upd, push]; rfl
  · split
    · rw [upd, push]; rfl
    · rfl

theorem event_mem (code cmpId unit data : Nat) (s : State) : (event code cmpId unit data s).mem = s.mem := by
  have e := congrArg State.mem (event_frame code cmpId unit data s)
  exact e

/-- The state without the fabric and the output. -/
abbrev besidesFabric (s : State) : State := { s with fab := {}, out := [] }

theorem sendOn_frame (p : Nat) (k : Pkt) (s : State) : besidesFabric (sendOn p k s) = besidesFabric s := by
  unfold sendOn
  dsimp only
  split
  · unfold putFlits
    refine (each_keeps (g := besidesFabric) ?_ _).trans rfl
    intros; rfl
  · rfl

/-- Routing a packet may change the fabric, the output, and the fabric's counters. -/
theorem route_frame (k : Pkt) (s : State) :
    ({ besidesFabric (route k s) with regs := [] } : State) = { besidesFabric s with regs := [] } := by
  have inbox : ∀ k s, ({ besidesFabric (toInbox k s) with regs := [] } : State) = { besidesFabric s with regs := [] } := by
    intro k s; unfold toInbox; dsimp only; split <;> rfl
  have own : ∀ s, ({ besidesFabric (ownNoRoute k s) with regs := [] } : State) = { besidesFabric s with regs := [] } := by
    intro s; unfold ownNoRoute; split
    · exact inbox _ _
    · rfl
  unfold route
  dsimp only
  split
  · exact inbox _ _
  · split
    · rfl
    · split
      · exact own _
      · split
        · exact congrArg (fun x : State => ({ x with regs := [] } : State)) (sendOn_frame _ _ _)
        · exact (own _).trans rfl

theorem route_mem (k : Pkt) (s : State) : (route k s).mem = s.mem := by
  have e := congrArg State.mem (route_frame k s)
  exact e

end Sys2Proof.Machine
end

