-- ==== Sys2Proof/WellFormed.lean ====
section
/-! DEFINITION. Which commands can reach the block at all: the rules that a sender of each kind meets by its construction
(R9, R27, R125, R153). A meaning is given to every command, well formed or not. -/

namespace Sys2Proof

/-- A register access of the right size: aligned, and a 32-bit access carries 32 bits (R9). -/
def RegAcc.wf (a : RegAcc) : Bool :=
  if a.wide then a.addr.toNat % 8 == 0 else a.addr.toNat % 4 == 0 && a.value.toNat < 2 ^ 32

/-- A line's address (R26). -/
def lineAddr (pa : BitVec 56) : Bool := pa.toNat % 64 == 0

/-- A host's CXL.mem request names a line (R27). -/
def HostReq.wf (r : HostReq) : Bool := r.hpa.toNat % 64 == 0

/-- PKT_LEN counts a packet's slots, 1 to 18, header included, and its virtual channel is one of the five (R153). -/
def Hdr.wf (h : Hdr) : Bool := 1 ≤ h.pktLen.toNat && h.pktLen.toNat ≤ 18 && h.vc.toNat ≤ 4

/-- See `Hdr.wf`. -/
def Pkt.wf (p : Pkt) : Bool := p.hdr.wf && (p.body.length + 1 == p.hdr.pktLen.toNat || p.body.length + 2 == p.hdr.pktLen.toNat)

/-- A message to a home or from an agent names a line. -/
def HomeMsg.wf (m : HomeMsg) : Bool := lineAddr m.pa
/-- See `HomeMsg.wf`. -/
def HomeRsp.wf (m : HomeRsp) : Bool := lineAddr m.pa
/-- See `HomeMsg.wf`. -/
def AgentMsg.wf (m : AgentMsg) : Bool := lineAddr m.pa

/-- The command can reach the block. -/
def Instr.wf : Instr → Bool
  | .registerWrite _ a => a.wf
  | .brlWrite _ a => a.wf
  | .fabRouteWrite _ _ a => a.wf
  | .glbFeatAcceptWrite _ _ a => a.wf
  | .asidCreate _ _ a => a.wf
  | .asidDestroy _ _ a => a.wf
  | .invalDrain _ _ a => a.wf
  | .invalAbort _ _ a => a.wf
  | .reroot _ _ a => a.wf
  | .agentEntryWrite _ _ _ a => a.wf
  | .cacheLoad _ _ pa => lineAddr pa
  | .cacheStore _ _ pa _ _ => lineAddr pa
  | .cacheEvict _ _ pa => lineAddr pa
  | .rdS m => m.wf
  | .rdX m => m.wf
  | .upg m => m.wf
  | .wb m => m.wf
  | .evE m => m.wf
  | .evF m => m.wf
  | .rdCur m => m.wf
  | .wrFull m => m.wf
  | .wrPtl m => m.wf
  | .atom m => m.wf
  | .snpS m => m.wf
  | .snpX m => m.wf
  | .snpInv m => m.wf
  | .snpCur m => m.wf
  | .dataF m => m.wf
  | .dataE m => m.wf
  | .dataM m => m.wf
  | .cmp m => m.wf
  | .wbAck m => m.wf
  | .invAck m => m.wf
  | .rspFwd m => m.wf
  | .rspFwdWb m => m.wf
  | .rspData m => m.wf
  | .fin m => m.wf
  | .memRdData r => r.wf
  | .memRd r _ _ => r.wf
  | .memInv r _ _ => r.wf
  | .memSpecRd r => r.wf
  | .memWr r _ _ => r.wf
  | .biRspI r _ => r.wf
  | .biRspS r _ => r.wf
  | .biRspE r _ => r.wf
  | .biConflict r => r.wf
  | .bulkRd h => h.wf
  | .bulkWr p => p.wf
  | .bulkData p => p.wf
  | .atomData p => p.wf
  | .curData p => p.wf
  | .engFwd p => p.wf
  | .engCmp p => p.wf
  | .collJoin p => p.wf
  | .collArm p => p.wf
  | .partialAcc p => p.wf
  | .rearm p => p.wf
  | .collDone p => p.wf
  | .collAbort p => p.wf
  | .poolEvent p => p.wf
  | .routeSet p => p.wf
  | .badSizeAccess _ _ => true
  | .imageRead => true
  | .deltaData _ _ _ => true
  | .deltaEnd _ _ _ => true
  | .deltaDrainDone => true
  | .deltaDrainTimeout => true
  | .deltaMarkingDone => true
  | .expanderEnumeration _ => true
  | .heatEpochEnd _ => true
  | .heatClear _ _ => true
  | .nwFillDone _ => true
  | .tierAccessDone _ => true
  | .tierLate _ _ => true
  | .accessTimeout _ => true
  | .farAccessFailed _ => true
  | .expanderReturn _ _ => true
  | .migrationBatchDrained _ => true
  | .migrationCopyDone _ _ => true
  | .harvestDeclare _ => true
  | .harvestPublish _ => true
  | .harvestCut _ _ => true
  | .harvestOpen _ => true
  | .harvestClose _ => true
  | .harvestCloseDrained _ _ => true
  | .harvestRetire _ => true
  | .harvestUndeclare _ => true
  | .versionCopyDone _ _ => true
  | .exhaustWriteResume _ => true
  | .beat _ _ _ => true
  | .heartbeatTimeout _ _ => true
  | .resume _ _ _ => true
  | .snoopTimeout _ _ => true
  | .tileSnoopTimeout _ _ _ => true
  | .configRequest _ => true
  | .agentDown _ => true
  | .cacheInval _ => true
  | .hostInval _ => true
  | .dataFlit _ _ _ => true
  | .idleFlit _ _ _ => true
  | .nakFlit _ _ _ => true
  | .auditFlit _ _ _ _ => true
  | .auditFlitTimer _ => true
  | .linkSilence _ => true
  | .reconcile _ _ => true
  | .reconcileTimeout _ => true
  | .wrCmp _ => true
  | .nak _ => true
  | .fence _ => true
  | .fenceAck _ => true
  | .incarnation _ => true
  | .jobStop _ => true
  | .heartbeat _ => true
  | .heartbeatSend => true
  | .heartbeatMiss _ _ => true
  | .nodeDown _ _ => true
  | .hotlineWindowEnd => true
  | .managementResend => true
  | .sluiceEnable _ _ _ => true
  | .sluiceDisable _ _ _ => true
  | .sqDoorbell _ _ _ => true
  | .cqDoorbell _ _ _ => true
  | .slcIrqWrite _ _ _ => true
  | .descriptorFetch => true
  | .sluiceAging _ => true
  | .fetchReturn _ _ _ => true
  | .descriptorStart _ => true
  | .descriptorComplete _ => true
  | .irqTimer _ => true
  | .invalComplete _ => true
  | .walkDone _ _ _ => true
  | .xstoreRoom _ _ => true
  | .accumulate _ _ => true
  | .reduceScatter _ _ => true
  | .allreduce _ _ => true
  | .mergeApply _ _ => true
  | .run _ _ => true
  | .collectiveTimeout _ => true
  | .gather _ _ => true
  | .pool _ _ => true
  | .scatterMerge _ _ => true
  | .gatherPrefetch _ _ => true
  | .pieceStart _ _ _ _ => true
  | .threadReady _ => true
  | .blockCommit _ _ => true
  | .transientError _ _ _ _ _ => true
  | .replay _ _ => true
  | .spareSwitched _ _ => true
  | .panStallTimeout _ => true
  | .strikeExpiry _ => true
  | .selftestStart _ => true
  | .selftestEnd _ _ => true
  | .search _ _ => true
  | .deadlineExpiry _ => true
  | .rakeAppend _ _ => true
  | .rakeDelete _ _ => true
  | .attend _ _ => true
  | .fill _ _ => true
  | .copy _ _ => true
  | .migrate _ _ => true
  | .movePrefetch _ _ => true
  | .advise _ _ => true
  | .heatSnapshot _ _ => true
  | .compare _ _ => true
  | .checksum _ _ => true
  | .contentHash _ _ => true
  | .scrub _ _ => true
  | .portTraining _ _ => true
  | .trainingRetry _ _ => true
  | .peerAuthRetry _ _ => true
  | .laneLoss _ _ _ _ => true
  | .laneRebuilt _ => true
  | .x4RetrainDone _ => true
  | .pcieRecoveryDone _ => true
  | .eyeMeasurement _ _ => true
  | .retrain _ _ _ => true
  | .marginNow _ _ _ _ => true
  | .perstAssert _ => true
  | .perstRelease _ => true
  | .rateHoldRelease _ => true
  | .hdmCommit _ _ _ _ _ => true
  | .portUp _ => true
  | .conventionalReset _ => true
  | .clockStartTimeout => true
  | .lfrefWindow _ => true
  | .lfrefEdgeLoss => true
  | .iroWindow _ => true
  | .xrefVoteWindow _ => true
  | .xrefEdgeLoss _ => true
  | .holdRetry _ _ => true
  | .returnMain _ _ => true
  | .iroTrimEnd => true
  | .mainPllLocked => true
  | .tileGate _ => true
  | .tileGated _ => true
  | .tileWake _ => true
  | .tileWakeDone _ => true
  | .pwrWakeWrite _ _ => true
  | .vaultSelfRefresh _ => true
  | .selfRefreshExit _ => true
  | .governorSample _ => true
  | .governorRaise => true
  | .powerCalibration _ _ => true
  | .thermalLoop _ _ => true
  | .burstCharge => true
  | .renew _ _ => true
  | .pwrgdAonRise _ _ _ _ => true
  | .pwrgdAonFall => true
  | .coldReset => true
  | .warmReset _ => true
  | .pwrgdMainRise => true
  | .railPowerGood _ => true
  | .railTimeout _ => true
  | .sequenceRetry => true
  | .mainPowerLoss _ => true
  | .thermalTrip _ _ => true
  | .pmbAlert _ _ _ => true
  | .patrolScrubPass _ _ _ => true
  | .layerSpareNow _ _ => true
  | .layerCopyDone _ => true
  | .configGoldenCheck _ _ => true
  | .conservationAudit _ => true
  | .failCmd _ _ => true
  | .panClear _ _ => true
  | .aorcFail => true
  | .slotWrite _ _ _ _ => true
  | .slotRevoke _ _ => true
  | .setRequirePq _ => true
  | .debugUnlock _ => true
  | .getMeasurements _ _ => true
  | .keyExchange _ => true
  | .meterTick => true
  | .meterTokens _ _ _ => true
  | .checkpoint => true
  | .berylPowerUp _ => true
  | .berylWatchdog => true
  | .berylRestartDone => true
  | .setCivilTime _ _ _ _ _ _ _ => true
  | .periodicReport _ => true
  | .onDemand _ _ => true
  | .reportPushRetry => true
  | .reportRead _ _ _ => true
  | .reportAck _ _ => true
  | .journalExtract _ _ _ => true
  | .chargeHeartbeat _ _ => true
  | .chargeWatchdog => true
  | .takeover => true
  | .stateCopy _ => true
  | .standbyMasterTakeover => true
  | .regRead _ _ _ => true
  | .regWrite _ _ _ => true
  | .eventSubscribe _ _ _ _ => true
  | .eventRead _ _ _ => true
  | .eventAck _ _ => true
  | .lrRead _ _ _ => true
  | .marginSweep _ _ => true
  | .fwRestart _ => true
  | .restartWrite _ _ => true
  | .failover _ => true
  | .mgtFwFailover _ _ => true
  | .seqRetry _ => true
  | .retainSeal _ _ => true
  | .retainAssert _ _ _ _ => true
  | .sealHashDone _ => true
  | .mctpControl _ _ _ => true
  | .pldmMonitoring _ => true
  | .pldmFirmwareUpdate _ _ => true
  | .stickySample => true
  | .eventPushRetry => true
  | .summaryWrite _ _ _ => true
  | .mirrorSync _ => true
  | .marginPeriod => true
  | .marginSlot _ => true
  | .onyxFirmwareStart _ _ _ _ => true
  | .powerOnSelfTest _ _ => true
  | .elect _ _ => true
  | .electionConcluded _ => true
  | .probe _ _ => true
  | .discoveryEnd _ _ => true
  | .formed _ _ _ => true
  | .formTimeout => true
  | .electResend => true
  | .joinReq _ _ _ => true
  | .retainHashDone _ _ => true
  | .expanderRetainDeadline _ => true

end Sys2Proof
end

