-- ==== Sys2Proof/Tests/Slice0.lean ====
section
/-! SUPPORT. Tests: what WellFormed refuses, states that meet the hypotheses of the statements, and single steps whose
results are worked out from the spec. -/

open Sys2Proof Sys2Proof.Machine

set_option Elab.async false

/-! ### States to test on -/

/-- A command runs on a state. -/
def Runs (c : Instr) (s : State) : Prop := ∃ t, exec c s = .next t

theorem Completes.runs {c : Instr} {s : State} {P : State → Prop} (h : Completes c s P) : Runs c s :=
  h.imp (fun _ x => x.1)

/-- Register fields set in a state. -/
def withRegs (l : List (Fld × Nat)) (s : State) : State := l.foldl (fun s e => fset e.1 e.2 s) s

/-- A composition of this Slosin alone (node 0): near frames 5 and 6, four sluices from 8 on, four host agents. -/
def tComp : Comp :=
  { cmpId := 7, slot := 3, keySlot := 1, software := false, hostCache := true, harvestEn := true, farEn := false, peerEn := false,
    portMask := 1, nearBytes := 4194304, farBytes := 0, spanBytes := 4194304, members := [0], hostAgents := 4, heartbeatMs := 100,
    sluiceFirst := 8, sluiceCount := 4, bwClass := 0, engineMask := 63, hostRate := 0, harvestReserve := 0, meterBinding := 0,
    tenantTag := 9, near := [5, 6] }

/-- Firmware is up; the composition is present; its first two pages, from physical address 0xA00000 on, have been written. -/
def tS : State :=
  { State.reset with comps := [tComp], mgt := { fwUp := true, postOk := true }, mem := { written := [(2560, ()), (2561, ())] }, img := { configured := true, poolSize := 1 } }

/-- Port 0 leads to a host, which agent entry 2 binds to the composition. -/
def tH : State :=
  tS |> withRegs [(PRT_STATUS_ROLE 0, 1), (PRT_STATUS_LINK_UP 0, 1), (PRT_AGENT_VALID 0 2, 1), (PRT_AGENT_REQ_ID 0 2, 0x100),
    (PRT_AGENT_SLOT 0 2, 3), (PRT_AGENT_AGENT 0 2, 1)]

/-- That host. -/
def tSrc : Src := .host 0 0x100

theorem tH_hostOf : HostOf tSrc 3 tComp tH := ⟨0, 0x100, 2, rfl, by decide, by decide, by decide, by decide, by decide⟩

/-- A management request in a session. -/
def tM : MgtReq := ⟨true, 5⟩

theorem tM_up : MgtUp tM tS := by decide

/-- Line 0 of the composition lies at physical address 0xA00000. -/
theorem tS_line : LineAt 3 0 tComp 10485760 tS := by decide

/-- The bytes of a descriptor: opcode, engine, and fields at byte offsets. -/
def tRaw (opc eng : Nat) (l : List (Nat × Nat)) : BitVec 1024 :=
  BitVec.ofNat 1024 (l.foldl (fun a e => a + e.2 * 2 ^ (8 * e.1)) (opc + eng * 256))

/-- A running descriptor of sluice 8: virtual addresses from 0x10000 on are the composition's memory, writable. -/
def tDesc (raw : BitVec 1024) : Desc :=
  { id := 4, sluice := 8, slot := 0, raw, list := 0, phase := .running, runs := [⟨0, 0x10000, 4194304, .pool 0, true⟩] }

/-- The state with that descriptor in flight. -/
def tE (raw : BitVec 1024) : State := { tS with slc := { descs := [tDesc raw], nextDesc := 5 } }

/-- Bytes stored at physical addresses. -/
def withBytes (l : List (Nat × Byte)) (s : State) : State := { s with mem := { s.mem with bytes := l.foldl (fun m e => kset m e.1 e.2 0) s.mem.bytes } }

theorem test_meets_RegisterAccessTypes (h : Obligations.RegisterAccessTypes) :
    Runs (.registerWrite .mgmt ⟨0x10, true, 5⟩) tS ∧
    Runs (.registerWrite .firmware ⟨0x400030, false, 0x38⟩) tS :=
  ⟨Completes.runs (h .mgmt ⟨0x10, true, 5⟩ tS [(GLB_IGNORED_WRITE_CNT, .cnt)] (by decide) (by decide) (by decide) (by decide) (by decide) (by decide)),
    Completes.runs (h .firmware ⟨0x400030, false, 0x38⟩ tS ((regAt 0x400030).getD []) (by decide) (by decide) (by decide) (by decide) (by decide) (by decide))⟩

theorem test_meets_BrlWritesAreCounted (h : Obligations.BrlWritesAreCounted) :
    Runs (.brlWrite .mgmt ⟨0, true, 1⟩) tS :=
  Completes.runs (h .mgmt ⟨0, true, 1⟩ tS (by decide) (by decide))

theorem test_meets_BadAccessIsDiscarded (h : Obligations.BadAccessIsDiscarded) :
    Runs (.registerWrite .mgmt ⟨4, true, 1⟩) tS ∧
    Runs (.badSizeAccess true 0) tS ∧
    Runs (.badSizeAccess false 0) tS :=
  ⟨Completes.runs (h.2.2 .mgmt ⟨4, true, 1⟩ tS (by decide) (by decide)),
    Completes.runs (h.1 0 tS),
    Completes.runs (h.2.1 0 tS)⟩

theorem test_meets_OffsetsOfNoBlock (h : Obligations.OffsetsOfNoBlock) :
    Runs (.registerWrite .mgmt ⟨0x560000, true, 1⟩) tS ∧
    Runs (.registerWrite .mgmt ⟨0xEFFFFFC, true, 1⟩) tS :=
  ⟨⟨_, (h .mgmt ⟨0x560000, true, 1⟩ tS (by decide) (by decide)).2.2.1 (by decide)⟩,
    Completes.runs ((h .mgmt ⟨0xEFFFFFC, true, 1⟩ tS (by decide) (by decide)).2.2.2.1 (by decide))⟩

theorem test_meets_FeatureAcceptWrites (h : Obligations.FeatureAcceptWrites) :
    Runs (.glbFeatAcceptWrite .mgmt 0 ⟨0x40, true, 0⟩) tS ∧
    Runs (.glbFeatAcceptWrite .mgmt 3 ⟨0x5C, false, 1⟩) tS :=
  ⟨Completes.runs (h .mgmt 0 ⟨0x40, true, 0⟩ tS (by decide) (by decide) (by decide)),
    Completes.runs (h .mgmt 3 ⟨0x5C, false, 1⟩ tS (by decide) (by decide) (by decide))⟩

theorem test_meets_CompositionWindowCommands (h : Obligations.CompositionWindowCommands) :
    Runs (.heatClear tSrc 3) tH ∧
    Runs (.beat tSrc 3 3) tH ∧
    Runs (.resume tSrc 3 6) tH :=
  ⟨Completes.runs (h.1 tSrc 3 tComp tH tH_hostOf (by decide) (by decide) (by decide)),
    Completes.runs (h.2.1 tSrc 3 3 tComp tH tH_hostOf (by decide) (by decide)),
    Completes.runs (h.2.2 tSrc 3 6 tComp tH tH_hostOf (by decide) (by decide))⟩

theorem test_meets_ManagementRegisterCommands (h : Obligations.ManagementRegisterCommands) :
    Runs (.regRead tM 0 16) tS ∧
    Runs (.regRead tM 0 17) tS ∧
    Runs (.regWrite tM 0x18 3) tS ∧
    Runs (.regWrite ⟨false, 1⟩ 0x18 3) tS :=
  ⟨Completes.runs (h.1 tM 0 16 tS tM_up (by decide) (by decide)),
    Completes.runs (h.2.1 tM 0 17 tS tM_up (by decide)),
    Completes.runs (h.2.2.1 tM 3 tS tM_up),
    Completes.runs (h.2.2.2 ⟨false, 1⟩ 0x18 3 tS (by decide) (by decide))⟩

/-! ### Images that pass their checks -/

theorem crcBit_lt (x : Nat) (h : x < 2 ^ 32) : crcBit 0x82F63B78 x < 2 ^ 32 := by
  have h2 : x / 2 < 2 ^ 32 := by omega
  unfold crcBit
  split
  · first | exact Nat.xor_lt_two_pow h2 (by decide) | exact Nat.xor_lt_two_pow (by decide) h2
  · exact h2

theorem crcByte_lt (x : Nat) (b : Byte) (h : x < 2 ^ 32) : crcByte 0x82F63B78 x b < 2 ^ 32 := by
  unfold crcByte
  have h0 : x ^^^ b.toNat < 2 ^ 32 := Nat.xor_lt_two_pow h (by have := b.isLt; omega)
  generalize x ^^^ b.toNat = y at h0
  generalize List.range 8 = l
  induction l generalizing y with
  | nil => exact h0
  | cons a l ih => exact ih _ (crcBit_lt _ h0)

theorem crc32c_lt (l : List Byte) : crc32c l < 2 ^ 32 := by
  unfold crc32c
  refine Nat.xor_lt_two_pow ?_ (by decide)
  have h : (0xFFFFFFFF : Nat) < 2 ^ 32 := by decide
  generalize (0xFFFFFFFF : Nat) = y at h
  induction l generalizing y with
  | nil => exact h
  | cons a l ih => exact ih _ (crcByte_lt _ _ h)

theorem leNat_natLe4 (v : Nat) (h : v < 2 ^ 32) : leNat (natLe 4 v) = v := by
  simp only [natLe, leNat, BitVec.toNat_ofNat]
  omega

/-- A delta that changes nothing but the serial: one COMPOSITIONS section without entries (R32 to R35, R38). -/
def tDeltaBody : List Byte := natLe 2 3 ++ natLe 2 0 ++ natLe 4 0x50 ++ natLe 4 16 ++ natLe 2 1 ++ natLe 2 0 ++ natLe 2 0 ++ natLe 14 128

/-- See `tDeltaBody`. -/
def tDelta : List Byte :=
  natLe 4 0x494D594E ++ natLe 4 1 ++ natLe 4 208 ++ natLe 2 1 ++ natLe 2 1 ++ natLe 8 1 ++ natLe 8 77 ++ natLe 8 0
    ++ natLe 4 (crc32c tDeltaBody) ++ natLe 4 1 ++ natLe 16 0 ++ tDeltaBody ++ natLe 4 1 ++ natLe 8 96 ++ natLe 100 0

/-- A die of unique ID 77 with an image key in slot 0, and this delta received. -/
def tDS : State :=
  { tS with comps := [], sec := { imgKeys := [(0, ([], []))] }, img := { configured := true, poolSize := 1, deltaBuf := tDelta, deltaPhase := .receiving },
            regs := [(GLB_UID.key, 77), (SEC_STATUS_IMGKEY.key, 1)] }

/-- The delta passes its checks where signatures verify: whether one does is opaque (assumption 31). -/
theorem tDelta_ok (hs : ∀ a k m g, Config.sigValid a k m g = true) : verifyDelta tDelta true tDS = 0 := by
  have h5 : imageSigned tDelta tDS = true := by
    have : imageSigned tDelta tDS = Config.sigValid 1 [] (tDelta.take 96) ((tDelta.take 208).drop 112) := by rfl
    rw [this, hs]
  have h4 : crcOk tDelta = true := by
    have : crcOk tDelta = (crc32c tDeltaBody == leNat (natLe 4 (crc32c tDeltaBody))) := by rfl
    rw [this, leNat_natLe4 _ (crc32c_lt _), beq_self_eq_true]
  unfold verifyDelta
  simp only [h4, h5]
  decide +kernel

/-- A full image of one Slosin that uses no port and holds no composition: its seven sections, one after another (R32 to R38). -/
def tImageBody : List Byte :=
  [(1, 176, 192), (2, 368, 112), (3, 480, 16), (4, 496, 48), (5, 544, 24), (6, 568, 384), (7, 952, 2048)].flatMap (fun x =>
      natLe 4 x.1 ++ natLe 4 x.2.1 ++ natLe 4 x.2.2 ++ natLe 4 1)
    ++ (List.range 24).flatMap (fun i => natLe 8 (i * 2 ^ 16)) ++ natLe 112 (2 ^ 16 + 2 ^ 32 + 2 ^ 40) ++ natLe 16 (128 * 2 ^ 16)
    ++ List.replicate 2504 0

/-- Its header (R32). -/
def tImageHead : List Byte :=
  natLe 4 0x494D594E ++ natLe 4 1 ++ natLe 4 3112 ++ natLe 2 7 ++ natLe 2 1 ++ natLe 8 1 ++ natLe 8 77 ++ natLe 8 0
    ++ natLe 4 (crc32c tImageBody) ++ natLe 20 0

/-- The image: its header, its sections, its signature block. -/
def tImage : List Byte := tImageHead ++ (tImageBody ++ (natLe 4 1 ++ natLe 8 96 ++ natLe 100 0))

/-- Firmware up, self-test passed, no image in force, the lifetime record good. -/
def tNoImage : State :=
  { State.reset with mgt := { fwUp := true, postOk := true }, sec := { imgKeys := [(0, ([], []))] }, img := { slotA := tImage },
                     regs := [(GLB_UID.key, 77), (SEC_STATUS_IMGKEY.key, 1), (LRC_STATUS_PRIMARY_OK.key, 1)] }

theorem meterZero_zeros (n : Nat) : meterZero (List.replicate n 0) = true := by
  have hz : ∀ i k : Nat, zeroBytes (List.replicate n (0 : Byte)) i k = true := by
    intro i k
    simp [zeroBytes, List.drop_replicate, List.take_replicate]
  have hf : ∀ i : Nat, secField (List.replicate n (0 : Byte)) i 1 < 2 := by
    intro i
    unfold secField
    rw [List.drop_replicate, List.take_replicate]
    rcases Nat.eq_zero_or_pos (n - i) with h | h
    · simp [h, leNat]
    · rw [Nat.min_eq_left (by omega)]
      decide
  simp only [meterZero, hz, hf, decide_true, Bool.and_true, List.all_eq_true, implies_true]

/-- The image passes its checks where signatures verify. -/
theorem tImage_ok (hs : ∀ a k m g, Config.sigValid a k m g = true) : verifyFull tImage tNoImage = 0 := by
  have h5 : imageSigned tImage tNoImage = true := by
    have : imageSigned tImage tNoImage = Config.sigValid 1 [] (tImage.take 3000) ((tImage.take 3112).drop 3016) := by rfl
    rw [this, hs]
  have h4 : crcOk tImage = true := by
    have h : sigStart tImage = 3000 := by decide +kernel
    have hh : tImageHead.length = 64 := by decide +kernel
    have hb : tImageBody.length = 2936 := by decide +kernel
    have hc : secField tImage 0x28 4 = leNat (natLe 4 (crc32c tImageBody)) := by rfl
    have hd : (tImage.take 3000).drop 0x40 = tImageBody := by
      rw [tImage, List.take_append, List.drop_append, List.take_of_length_le (by omega), List.drop_of_length_le (by omega), hh,
        List.take_append, List.take_of_length_le (by omega), hb]
      simp
    unfold crcOk
    rw [h, hc, hd, leNat_natLe4 _ (crc32c_lt _), beq_self_eq_true]
  have h7 : (sect? tImage 7).getD [] = List.replicate 2048 0 := by decide +kernel
  have hm := meterZero_zeros 2048
  have h10 : reservedOk true tImage = true := by
    unfold reservedOk
    rw [h7, hm]
    decide +kernel
  unfold verifyFull
  simp only [h4, h5, h10]
  decide +kernel

/-- A delta in progress that creates composition 9 in slot 4. -/
def tStaged : Staged := ⟨2, 1, [({ tComp with cmpId := 9, slot := 4, keySlot := 2, sluiceFirst := 16, near := [] }, true)], none, none⟩

/-- See `tStaged`. -/
def tDelaying (ph : DeltaPhase) : State :=
  { tS with img := { configured := true, poolSize := 1, serial := 1, deltaPhase := ph, staged := some tStaged } }

theorem test_meets_ImagesAndDeltas (h : Obligations.ImagesAndDeltas) (hs : ∀ a k m g, Config.sigValid a k m g = true) :
    Runs .imageRead tNoImage ∧
    Runs .imageRead ({ tNoImage with img := {} }) ∧
    Runs (.deltaData tM (BitVec.ofNat 32 tDS.img.deltaBuf.length) (List.replicate 1024 1)) tDS ∧
    Runs (.deltaEnd tM 0 true) tS ∧
    Runs (.deltaEnd tM 208 true) tDS ∧
    Runs .deltaDrainDone (tDelaying .draining) ∧
    Runs .deltaDrainTimeout (tDelaying .draining) ∧
    Runs .deltaMarkingDone (tDelaying .marking) :=
  ⟨Completes.runs ((h.1 tNoImage (by decide +kernel) (by decide +kernel) (by decide +kernel) (by decide +kernel) (by decide +kernel)).1 (tImage_ok hs)),
    Completes.runs ((h.1 { tNoImage with img := {} } (by decide +kernel) (by decide +kernel) (by decide +kernel) (by decide +kernel) (by decide +kernel)).2 (by decide +kernel) (by decide +kernel)),
    Completes.runs (h.2.1 tM (List.replicate 1024 1) tDS (by decide +kernel) (by decide +kernel) (by decide +kernel) (by decide +kernel)),
    Completes.runs ((h.2.2.1 tM 0 tS (by decide +kernel) (by decide +kernel) (by decide +kernel)).1 (by decide +kernel)),
    Completes.runs ((h.2.2.1 tM 208 tDS (by decide +kernel) (by decide +kernel) (by decide +kernel)).2 (tDelta_ok hs) (by decide +kernel) (by decide +kernel) (by decide +kernel)),
    Completes.runs ((h.2.2.2.1 tStaged (tDelaying .draining) (by decide +kernel) (by decide +kernel) (by decide +kernel) (by decide +kernel)).1 (by decide +kernel)),
    Completes.runs ((h.2.2.2.1 tStaged (tDelaying .draining) (by decide +kernel) (by decide +kernel) (by decide +kernel) (by decide +kernel)).2 (by decide +kernel)),
    Completes.runs (h.2.2.2.2 tStaged _ (tDelaying .marking) (by decide +kernel) (by decide +kernel) rfl (by decide +kernel) (by decide +kernel) (by decide +kernel))⟩

/-- Port 3 leads to an expander; nothing enumerated yet. -/
def tExp : State := { tS with comps := [], img := { configured := true, poolSize := 1, ports := (List.range 24).map (fun i => [if i = 3 then 2 else 0, 0, i, 4, 0]) } }

/-- A write that waits for the fill of page 2560. -/
def tFill (why : BusyWhy) (op : AccOp) (k : Nat) : State :=
  { tS with mem := { tS.mem with busy := [(2560, why)], waits := [{ slot := 3, line := 0, op, reply := .tile 2 k }] } }

/-- An access of descriptor 4 to the expander on port 3. -/
def tTier : State := { tE 0 with mem := { tS.mem with tier := [{ id := 1, tier := .far 3, slot := 3, desc := 4, piece := 0 }], expanders := [⟨3, 2 ^ 40, true, 1, false, false⟩] } }

/-- That expander down, or back and waiting for an assertion. -/
def tBack (w : Bool) : State := { tS with mem := { tS.mem with allotted := true, expanders := [⟨3, 2 ^ 40, false, 1, w, false⟩] } }

theorem test_meets_PoolMemoryOverTime (h : Obligations.PoolMemoryOverTime) :
    Runs (.expanderEnumeration [(3, some (BitVec.ofNat 43 (2 ^ 42 + 1)))]) tExp ∧
    Runs (.heatEpochEnd 3) (withRegs [(CMP_HEAT_CTL_FREEZE 3, 1)] tS) ∧
    Runs (.heatEpochEnd 3) tS ∧
    Runs (.nwFillDone 2560) (tFill .fill .ack 0) ∧
    Runs (.tierAccessDone 1) tTier ∧
    Runs (.tierLate 1 40) tTier ∧
    Runs (.accessTimeout 1) tTier ∧
    Runs (.farAccessFailed 3) tTier ∧
    Runs (.expanderReturn 3 100) (tBack false) ∧
    Runs (.expanderRetainDeadline 3) (tBack true) :=
  ⟨Completes.runs (h.1 3 (BitVec.ofNat 43 (2 ^ 42 + 1)) tExp (by decide +kernel) (by decide +kernel) (by decide +kernel) (by decide +kernel) (by decide +kernel) (by decide +kernel)),
    ⟨_, (h.2.1 3 tComp (withRegs [(CMP_HEAT_CTL_FREEZE 3, 1)] tS) (by decide +kernel) (by decide +kernel)).1 (by decide +kernel)⟩,
    Completes.runs ((h.2.1 3 tComp tS (by decide +kernel) (by decide +kernel)).2 (by decide +kernel)),
    Completes.runs (h.2.2.1 2560 10485760 _ 2 0 tComp (tFill .fill .ack 0) (by decide +kernel) rfl (by decide +kernel) rfl (by decide +kernel) (by decide +kernel) (by decide +kernel)),
    Completes.runs (h.2.2.2.1 1 tTier),
    Completes.runs (h.2.2.2.2.1 1 40 _ _ tComp tTier rfl rfl (by decide +kernel) (by decide +kernel)),
    Completes.runs (h.2.2.2.2.2.1 1 _ _ tTier rfl rfl (by decide +kernel) (by decide +kernel)),
    Completes.runs (h.2.2.2.2.2.2.1 3 _ _ tTier rfl (by decide +kernel) rfl (by decide +kernel) (by decide +kernel)),
    Completes.runs ((h.2.2.2.2.2.2.2 3 100 _ (tBack false) rfl (by decide +kernel)).1 (by decide +kernel)),
    Completes.runs ((h.2.2.2.2.2.2.2 3 100 _ (tBack true) rfl (by decide +kernel)).2 (by decide +kernel) (by decide +kernel))⟩

/-- A harvest command on the region at address 0. -/
def tHv (opc : Nat) (l : List (Nat × Nat)) (r : List Region) (v : List View) : State := { tE (tRaw opc 0 l) with hv := { regions := r, views := v } }

/-- The region of the first page, with one harvest. -/
def tRegion (refs : Nat) (st : HSt) : Region := { slot := 3, base := 0, length := 4096, isProtected := false, lastVersion := 1, harvests := [{ version := 1, st, refs, cut := 0 }] }

/-- A PUBLISH that a member forwarded waits for its cut. -/
def tCut : State := { tS with hv := { regions := [{ tRegion 0 .live with publishing := some { fwd := some (9, 1), opc := 0x41, slot := 3, pa := 0 } }] } }

/-- A CLOSE of view 0 by descriptor 4 waits for the view's transfers. -/
def tClosing : State :=
  { tE (tRaw 0x43 0 []) with hv := { regions := [tRegion 2 .live], views := [⟨3, 0, 0, 0, 1, false, some { desc := 4, opc := 0x43, slot := 3, pa := 0 }⟩] },
                             slc := { descs := [{ tDesc (tRaw 0x43 0 []) with phase := .waiting }] } }

theorem test_meets_HarvestCommands (h : Obligations.HarvestCommands) :
    Runs (.harvestDeclare 4) (tHv 0x40 [(24, 4096)] [] []) ∧
    Runs (.harvestPublish 4) (tHv 0x41 [] [tRegion 0 .live] []) ∧
    Runs (.harvestOpen 4) (tHv 0x42 [(32, 0xFFFFFFFF), (40, 0x11038)] [tRegion 0 .live] []) ∧
    Runs (.harvestClose 4) (tHv 0x43 [] [tRegion 1 .live] [⟨3, 0, 0, 0, 1, false, none⟩]) ∧
    Runs (.harvestRetire 4) (tHv 0x44 [(32, 1)] [tRegion 0 .live] []) ∧
    Runs (.harvestRetire 4) (tHv 0x44 [(32, 1)] [tRegion 1 .held] []) ∧
    Runs (.harvestUndeclare 4) (tHv 0x45 [] [tRegion 0 .live] []) ∧
    Runs (.harvestCut 3 0) tCut ∧
    Runs (.harvestCloseDrained 3 0) tClosing :=
  ⟨Completes.runs ((h.1 4 (tDesc (tRaw 0x40 0 [(24, 4096)])) tComp (tHv 0x40 [(24, 4096)] [] []) ⟨.at_ 10485760, (by decide +kernel)⟩ (by decide +kernel) (by decide +kernel)).1 (by decide +kernel)),
    Completes.runs ((h.1 4 (tDesc (tRaw 0x41 0 [])) tComp (tHv 0x41 [] [tRegion 0 .live] []) ⟨.at_ 10485760, (by decide +kernel)⟩ (by decide +kernel) (by decide +kernel)).2.1 (by decide +kernel) (by decide +kernel)),
    Completes.runs ((h.1 4 (tDesc (tRaw 0x42 0 [(32, 0xFFFFFFFF), (40, 0x11038)])) tComp (tHv 0x42 [(32, 0xFFFFFFFF), (40, 0x11038)] [tRegion 0 .live] []) ⟨.at_ 10485760, (by decide +kernel)⟩ (by decide +kernel) (by decide +kernel)).2.2.1 (tRegion 0 .live) { version := 1, st := .live, refs := 0, cut := 0 } 10489856 (by decide +kernel) (by decide +kernel) (by decide +kernel) (by decide +kernel) ⟨0x1038, (by decide +kernel), (by decide +kernel), (by decide +kernel), (by decide +kernel)⟩),
    Completes.runs ((h.1 4 (tDesc (tRaw 0x43 0 [])) tComp (tHv 0x43 [] [tRegion 1 .live] [⟨3, 0, 0, 0, 1, false, none⟩]) ⟨.at_ 10485760, (by decide +kernel)⟩ (by decide +kernel) (by decide +kernel)).2.2.2.1 (by decide +kernel)),
    Completes.runs ((h.1 4 (tDesc (tRaw 0x44 0 [(32, 1)])) tComp (tHv 0x44 [(32, 1)] [tRegion 0 .live] []) ⟨.at_ 10485760, (by decide +kernel)⟩ (by decide +kernel) (by decide +kernel)).2.2.2.2.1 (tRegion 0 .live) { version := 1, st := .live, refs := 0, cut := 0 } (by decide +kernel) (by decide +kernel) (by decide +kernel)),
    Completes.runs ((h.1 4 (tDesc (tRaw 0x44 0 [(32, 1)])) tComp (tHv 0x44 [(32, 1)] [tRegion 1 .held] []) ⟨.at_ 10485760, (by decide +kernel)⟩ (by decide +kernel) (by decide +kernel)).2.2.2.2.1 (tRegion 1 .held) { version := 1, st := .held, refs := 1, cut := 0 } (by decide +kernel) (by decide +kernel) (by decide +kernel)),
    Completes.runs ((h.1 4 (tDesc (tRaw 0x45 0 [])) tComp (tHv 0x45 [] [tRegion 0 .live] []) ⟨.at_ 10485760, (by decide +kernel)⟩ (by decide +kernel) (by decide +kernel)).2.2.2.2.2 (by decide +kernel)),
    Completes.runs (h.2.1 3 0 _ _ 9 1 tCut rfl (by decide +kernel) (by decide +kernel) rfl (by decide +kernel) (by decide +kernel) (by decide +kernel) (by decide +kernel)),
    Completes.runs (h.2.2 3 0 _ _ _ _ _ tComp tClosing rfl rfl (by decide +kernel) (by decide +kernel) (by decide +kernel) rfl (by decide +kernel) (by decide +kernel) (by decide +kernel) rfl (by decide +kernel) rfl (by decide +kernel) (by decide +kernel))⟩

/-- A composition under coherence by software, and a descriptor over its first two lines. -/
def tSoft (opc : Nat) : State :=
  { tH with comps := [{ tComp with software := true }], slc := { descs := [{ tDesc (tRaw opc 0 [(24, 128)]) with runs := [⟨0, 0x10000, 128, .pool 0, true⟩] }] },
            coh := { copies := [(copyKey 2 3 1, { st := .s, data := 7 })] } }

/-- The same with no agent. -/
def tSoftNone : State := { tSoft 0x49 with regs := [] }

/-- One snoop of HOST_INVAL is unanswered. -/
def tInval : State :=
  { tSoft 0x49 with slc := { descs := [{ tDesc (tRaw 0x49 0 [(24, 128)]) with phase := .waiting }] },
                    coh := { hostSnps := [{ port := 0, entry := 2, slot := 3, line := 0, snp := .inv, inval := some 4 }] } }

theorem test_meets_VersionCopiesHostsAndCaches (h : Obligations.VersionCopiesHostsAndCaches) :
    Runs (.versionCopyDone 2560 []) ({ tFill .copy (.write 5 (BitVec.allOnes 64)) 4 with hv := { regions := [tRegion 0 .live] } }) ∧
    Runs (.exhaustWriteResume 2560) (tFill .exhaust (.write 5 (BitVec.allOnes 64)) 4) ∧
    Runs (.heartbeatTimeout 3 2) ({ tS with hv := { armed := [(agentKey 3 2, ())] } }) ∧
    Runs (.cacheInval 4) (tSoft 0x48) ∧
    Runs (.hostInval 4) (tSoft 0x49) ∧
    Runs (.hostInval 4) tSoftNone ∧
    Runs (.snoopTimeout 3 0) tInval :=
  ⟨Completes.runs (h.1 2560 [] { slot := 3, line := 0, op := .write 5 (BitVec.allOnes 64), reply := .tile 2 4 } (tRegion 0 .live) { version := 1, st := .live, refs := 0, cut := 0 } { tFill .copy (.write 5 (BitVec.allOnes 64)) 4 with hv := { regions := [tRegion 0 .live] } } (by decide +kernel) (by decide +kernel) (by decide +kernel) (by decide +kernel) (by decide +kernel) (by decide +kernel) (by decide +kernel) (by decide +kernel) (by decide +kernel)),
    Completes.runs (h.2.1 2560 10485760 { slot := 3, line := 0, op := .write 5 (BitVec.allOnes 64), reply := .tile 2 4 } 5 2 tComp (tFill .exhaust (.write 5 (BitVec.allOnes 64)) 4) (by decide +kernel) (by decide +kernel) (by decide +kernel) (by decide +kernel) (by decide +kernel) (by decide +kernel) (by decide +kernel)),
    Completes.runs (h.2.2.1 3 2 tComp { tS with hv := { armed := [(agentKey 3 2, ())] } } (by decide +kernel) (by decide +kernel) (by decide +kernel) (by decide +kernel)),
    Completes.runs (h.2.2.2.1 4 _ { tComp with software := true } (tSoft 0x48) ⟨rfl, (by decide +kernel), (by decide +kernel), (by decide +kernel), (by decide +kernel), (by decide +kernel), (by decide +kernel), (by decide +kernel), (by decide +kernel), (by decide +kernel)⟩ (by decide +kernel) (by decide +kernel)),
    Completes.runs ((h.2.2.2.2.1 4 _ { tComp with software := true } (tSoft 0x49) ⟨rfl, (by decide +kernel), (by decide +kernel), (by decide +kernel), (by decide +kernel), (by decide +kernel), (by decide +kernel), (by decide +kernel), (by decide +kernel), (by decide +kernel)⟩ (by decide +kernel) (by decide +kernel)).2 (by decide +kernel)),
    Completes.runs ((h.2.2.2.2.1 4 _ { tComp with software := true } tSoftNone ⟨rfl, (by decide +kernel), (by decide +kernel), (by decide +kernel), (by decide +kernel), (by decide +kernel), (by decide +kernel), (by decide +kernel), (by decide +kernel), (by decide +kernel)⟩ (by decide +kernel) (by decide +kernel)).1 (by decide +kernel)),
    Completes.runs (h.2.2.2.2.2 3 0 { port := 0, entry := 2, slot := 3, line := 0, snp := .inv, inval := some 4 } 4 { tDesc (tRaw 0x49 0 [(24, 128)]) with phase := .waiting } tInval (by decide +kernel) (by decide +kernel) (by decide +kernel) (by decide +kernel) (by decide +kernel) (by decide +kernel) (by decide +kernel) (by decide +kernel))⟩

/-- Tile 2 holds a copy of line 0, and is powered. -/
def tCopy (st : CSt) (pend : List (Line × BitVec 64)) : State :=
  { withRegs [(TIL_STATE_POWER 2, 2)] tS with coh := { copies := [(copyKey 2 3 0, { st, data := 7, pend })] } }

theorem test_meets_CacheSideTable (h : Obligations.CacheSideTable) :
    Runs (.cacheLoad (.tile 2) 3 0) (tCopy .i []) ∧
    Runs (.cacheStore (.tile 2) 3 0 9 1) (tCopy .i []) ∧
    Runs (.cacheStore (.tile 2) 3 0 9 1) (tCopy .s []) ∧
    Runs (.cacheStore (.tile 2) 3 0 9 1) (tCopy .f []) ∧
    Runs (.cacheStore (.tile 2) 3 0 9 1) (tCopy .e []) ∧
    Runs (.cacheStore (.tile 2) 3 0 9 1) (tCopy .m []) ∧
    Runs (.cacheEvict (.tile 2) 3 0) (tCopy .s []) ∧
    Runs (.cacheEvict (.tile 2) 3 0) (tCopy .f []) ∧
    Runs (.cacheEvict (.tile 2) 3 0) (tCopy .e []) ∧
    Runs (.cacheEvict (.tile 2) 3 0) (tCopy .m []) ∧
    Runs (.snpS { agent := .tile 2, slot := 3, pa := 0 }) (tCopy .f []) ∧
    Runs (.snpS { agent := .tile 2, slot := 3, pa := 0 }) (tCopy .m []) ∧
    Runs (.snpS { agent := .tile 2, slot := 3, pa := 0 }) (tCopy .fiA []) ∧
    Runs (.snpX { agent := .tile 2, slot := 3, pa := 0 }) (tCopy .e []) ∧
    Runs (.snpX { agent := .tile 2, slot := 3, pa := 0 }) (tCopy .miA []) ∧
    Runs (.snpInv { agent := .tile 2, slot := 3, pa := 0 }) (tCopy .i []) ∧
    Runs (.snpInv { agent := .tile 2, slot := 3, pa := 0 }) (tCopy .m []) ∧
    Runs (.snpInv { agent := .tile 2, slot := 3, pa := 0 }) (tCopy .smA []) ∧
    Runs (.snpInv { agent := .tile 2, slot := 3, pa := 0 }) (tCopy .miA []) ∧
    Runs (.snpCur { agent := .tile 2, slot := 3, pa := 0 }) (tCopy .m []) ∧
    Runs (.dataF { agent := .tile 2, slot := 3, pa := 0, data := 8, bittern := true }) (tCopy .isD []) ∧
    Runs (.dataE { agent := .tile 2, slot := 3, pa := 0, data := 8, bittern := true }) (tCopy .isD []) ∧
    Runs (.dataM { agent := .tile 2, slot := 3, pa := 0, data := 8, bittern := true }) (tCopy .imD []) ∧
    Runs (.cmp { agent := .tile 2, slot := 3, pa := 0, data := 8, bittern := true }) (tCopy .fmA []) ∧
    Runs (.wbAck { agent := .tile 2, slot := 3, pa := 0, data := 8, bittern := true }) (tCopy .eiA []) :=
  ⟨Completes.runs (h.1 2 3 0 tComp 10485760 (tCopy .i []) (by decide +kernel) (by decide +kernel) (by decide +kernel)),
    Completes.runs (h.2.1 2 3 0 9 1 tComp 10485760 (tCopy .i []) (by decide +kernel) (by decide +kernel)),
    Completes.runs (h.2.1 2 3 0 9 1 tComp 10485760 (tCopy .s []) (by decide +kernel) (by decide +kernel)),
    Completes.runs (h.2.1 2 3 0 9 1 tComp 10485760 (tCopy .f []) (by decide +kernel) (by decide +kernel)),
    Completes.runs (h.2.1 2 3 0 9 1 tComp 10485760 (tCopy .e []) (by decide +kernel) (by decide +kernel)),
    Completes.runs (h.2.1 2 3 0 9 1 tComp 10485760 (tCopy .m []) (by decide +kernel) (by decide +kernel)),
    Completes.runs (h.2.2.1 2 3 0 tComp 10485760 (tCopy .s []) (by decide +kernel)),
    Completes.runs (h.2.2.1 2 3 0 tComp 10485760 (tCopy .f []) (by decide +kernel)),
    Completes.runs (h.2.2.1 2 3 0 tComp 10485760 (tCopy .e []) (by decide +kernel)),
    Completes.runs (h.2.2.1 2 3 0 tComp 10485760 (tCopy .m []) (by decide +kernel)),
    Completes.runs ((h.2.2.2.1 2 3 0 (tCopy .f [])).1 (.f, .s) (by decide +kernel) rfl),
    Completes.runs ((h.2.2.2.1 2 3 0 (tCopy .m [])).1 (.m, .s) (by decide +kernel) rfl),
    Completes.runs ((h.2.2.2.1 2 3 0 (tCopy .fiA [])).1 (.fiA, .iiA) (by decide +kernel) rfl),
    Completes.runs ((h.2.2.2.1 2 3 0 (tCopy .e [])).2.1 (.e, .i) (by decide +kernel) rfl),
    Completes.runs ((h.2.2.2.1 2 3 0 (tCopy .miA [])).2.1 (.miA, .iiA) (by decide +kernel) rfl),
    Completes.runs ((h.2.2.2.1 2 3 0 (tCopy .i [])).2.2.1 (.i, .i, 0x45) (by decide +kernel) rfl),
    Completes.runs ((h.2.2.2.1 2 3 0 (tCopy .m [])).2.2.1 (.m, .i, 0x48) (by decide +kernel) rfl),
    Completes.runs ((h.2.2.2.1 2 3 0 (tCopy .smA [])).2.2.1 (.smA, .imD, 0x45) (by decide +kernel) rfl),
    Completes.runs ((h.2.2.2.1 2 3 0 (tCopy .miA [])).2.2.1 (.miA, .iiA, 0x48) (by decide +kernel) rfl),
    Completes.runs ((h.2.2.2.1 2 3 0 (tCopy .m [])).2.2.2 .m (by decide +kernel) rfl),
    Completes.runs ((h.2.2.2.2 2 3 0 8 true (tCopy .isD []) rfl).1 rfl),
    Completes.runs ((h.2.2.2.2 2 3 0 8 true (tCopy .isD []) rfl).2.1 rfl),
    Completes.runs ((h.2.2.2.2 2 3 0 8 true (tCopy .imD []) rfl).2.2.1 rfl),
    Completes.runs ((h.2.2.2.2 2 3 0 8 true (tCopy .fmA []) rfl).2.2.2.1 (.inr rfl)),
    Completes.runs ((h.2.2.2.2 2 3 0 8 true (tCopy .eiA []) rfl).2.2.2.2 (.inr (.inl rfl)))⟩

/-- Line 0 has this directory entry. -/
def tDir (d : DirLine) : State := { tS with coh := { dir := [(lineKey 3 0, d)] } }

/-- A transaction of tile 2 that waits for a snoop of `a`. -/
def tTxn (kind : RKind) (agent : Option Agent) (a : Agent) (k : Snp) (fwd : Bool) (e : DSt) (o : Option Agent) : Txn :=
  { req := { kind, agent, reply := .tile 2 3 }, tag := 0, await := [(a, k)], forwarded := fwd, endSt := e, endSharers := [], endOwner := o }

/-- A packet header of node 5 to this Slosin. -/
def tHdr (opc oparg : Nat) : Hdr :=
  { pktLen := BitVec.ofNat 5 (match legalLens opc with | n :: _ => n | _ => 1), vc := BitVec.ofNat 3 (vcOf opc), opc := BitVec.ofNat 8 opc, src := 5, cmpId := 7, oparg := BitVec.ofNat 64 oparg }

theorem test_meets_RequestsAtTheHome (h : Obligations.RequestsAtTheHome) :
    Runs (.rdS { via := .tile 2, slot := 3, pa := 0 }) tS ∧
    Runs (.rdX { via := .tile 2, slot := 3, pa := 0 }) tS ∧
    Runs (.upg { via := .tile 2, slot := 3, pa := 0 }) (tDir { st := .s, sharers := [.tile 2] }) ∧
    Runs (.wb { via := .tile 2, slot := 3, pa := 0, data := 9 }) (tDir { st := .em, owner := some (.tile 2) }) ∧
    Runs (.evE { via := .tile 2, slot := 3, pa := 0 }) (tDir { st := .em, owner := some (.tile 2) }) ∧
    Runs (.evF { via := .tile 2, slot := 3, pa := 0 }) (tDir { st := .sf, fw := some (.tile 2) }) ∧
    Runs (.rdCur { via := .tile 2, slot := 3, pa := 0 }) tS ∧
    Runs (.wrFull { via := .tile 2, slot := 3, pa := 0, data := 9 }) tS ∧
    Runs (.wrPtl { via := .tile 2, slot := 3, pa := 0, data := 0x0909, oparg := 2 }) tS ∧
    Runs (.atom { via := .tile 2, slot := 3, pa := 0, data := 9, oparg := 0x380101 }) tS :=
  ⟨Completes.runs (((h 2 3 0 tComp 10485760 tS (by decide +kernel)).1 rfl (by decide +kernel)).1),
    Completes.runs (((h 2 3 0 tComp 10485760 tS (by decide +kernel)).1 rfl (by decide +kernel)).2),
    Completes.runs ((h 2 3 0 tComp 10485760 (tDir { st := .s, sharers := [.tile 2] }) (by decide +kernel)).2.1 rfl rfl rfl rfl rfl),
    Completes.runs (((h 2 3 0 tComp 10485760 (tDir { st := .em, owner := some (.tile 2) }) (by decide +kernel)).2.2.1 9 rfl rfl rfl rfl).1),
    Completes.runs (((h 2 3 0 tComp 10485760 (tDir { st := .em, owner := some (.tile 2) }) (by decide +kernel)).2.2.1 9 rfl rfl rfl rfl).2),
    Completes.runs ((h 2 3 0 tComp 10485760 (tDir { st := .sf, fw := some (.tile 2) }) (by decide +kernel)).2.2.2.1 rfl rfl rfl rfl rfl),
    Completes.runs (((h 2 3 0 tComp 10485760 tS (by decide +kernel)).2.2.2.2 rfl).1),
    Completes.runs (((h 2 3 0 tComp 10485760 tS (by decide +kernel)).2.2.2.2 rfl).2.1 9),
    Completes.runs (((h 2 3 0 tComp 10485760 tS (by decide +kernel)).2.2.2.2 rfl).2.2.1 0x0909 2),
    Completes.runs (((h 2 3 0 tComp 10485760 tS (by decide +kernel)).2.2.2.2 rfl).2.2.2 9 0x380101 (by decide +kernel))⟩

theorem test_meets_ResponsesAtTheHome (h : Obligations.ResponsesAtTheHome) :
    Runs (.invAck { via := .tile 1, slot := 3, pa := 0 }) (tDir { st := .bSnp, txn := some (tTxn .rdX (some (.tile 2)) (.tile 1) .inv false .em (some (.tile 1))) }) ∧
    Runs (.rspFwd { via := .tile 1, slot := 3, pa := 0 }) (tDir { st := .bSnp, txn := some (tTxn .rdX (some (.tile 2)) (.tile 1) .x true .em (some (.tile 1))) }) ∧
    Runs (.rspFwdWb { via := .tile 1, slot := 3, pa := 0, data := 9 }) (tDir { st := .bSnp, txn := some (tTxn .rdS (some (.tile 2)) (.tile 1) .s true .em (some (.tile 1))) }) ∧
    Runs (.rspData { via := .tile 1, slot := 3, pa := 0, data := 9, dirty := true, bittern := false }) (tDir { st := .bSnp, txn := some (tTxn .rdCur none (.tile 1) .cur false .em (some (.tile 1))) }) ∧
    Runs (.fin { via := .tile 2, slot := 3, pa := 0 }) (tDir { st := .bFin, txn := some (tTxn .rdX (some (.tile 2)) (.tile 1) .x false .em (some (.tile 1))) }) ∧
    Runs (.fin { via := .tile 2, slot := 3, pa := 0 }) (tDir { st := .bFin, txn := some (tTxn .rdX (some (.tile 2)) (.tile 1) .x false .u (none)) }) ∧
    Runs (.snoopTimeout 3 0) (tDir { st := .bSnp, txn := some (tTxn .rdS (some (.tile 2)) (.peer 0) .s false .em (some (.tile 1))), owner := some (.peer 0) }) ∧
    Runs (.tileSnoopTimeout 3 0 1) (tDir { st := .bSnp, txn := some (tTxn .rdX (some (.tile 2)) (.tile 1) .inv false .em (some (.tile 1))) }) ∧
    Runs (.agentDown (tHdr 0x89 3)) (tDir { st := .em, owner := some (.host 3) }) :=
  ⟨Completes.runs ((h.1 1 2 3 0 tComp 10485760 (tTxn .rdX (some (.tile 2)) (.tile 1) .inv false .em (some (.tile 1))) (tDir { st := .bSnp, txn := some (tTxn .rdX (some (.tile 2)) (.tile 1) .inv false .em (some (.tile 1))) }) (by decide +kernel) rfl rfl rfl).1 rfl rfl ⟨_, rfl⟩ rfl rfl rfl),
    Completes.runs ((h.1 1 2 3 0 tComp 10485760 (tTxn .rdX (some (.tile 2)) (.tile 1) .x true .em (some (.tile 1))) (tDir { st := .bSnp, txn := some (tTxn .rdX (some (.tile 2)) (.tile 1) .x true .em (some (.tile 1))) }) (by decide +kernel) rfl rfl rfl).2.1 rfl rfl rfl rfl rfl),
    Completes.runs ((h.1 1 2 3 0 tComp 10485760 (tTxn .rdS (some (.tile 2)) (.tile 1) .s true .em (some (.tile 1))) (tDir { st := .bSnp, txn := some (tTxn .rdS (some (.tile 2)) (.tile 1) .s true .em (some (.tile 1))) }) (by decide +kernel) rfl rfl rfl).2.2.1 9 rfl rfl rfl rfl rfl),
    Completes.runs ((h.1 1 2 3 0 tComp 10485760 (tTxn .rdCur none (.tile 1) .cur false .em (some (.tile 1))) (tDir { st := .bSnp, txn := some (tTxn .rdCur none (.tile 1) .cur false .em (some (.tile 1))) }) (by decide +kernel) rfl rfl rfl).2.2.2.1 9 true false rfl rfl ⟨_, rfl⟩ rfl rfl rfl rfl rfl),
    Completes.runs ((h.1 1 2 3 0 tComp 10485760 (tTxn .rdX (some (.tile 2)) (.tile 1) .x false .em (some (.tile 1))) (tDir { st := .bFin, txn := some (tTxn .rdX (some (.tile 2)) (.tile 1) .x false .em (some (.tile 1))) }) (by decide +kernel) rfl rfl rfl).2.2.2.2.1 rfl),
    Completes.runs ((h.1 1 2 3 0 tComp 10485760 (tTxn .rdX (some (.tile 2)) (.tile 1) .x false .u (none)) (tDir { st := .bFin, txn := some (tTxn .rdX (some (.tile 2)) (.tile 1) .x false .u (none)) }) (by decide +kernel) rfl rfl rfl).2.2.2.2.1 rfl),
    Completes.runs ((h.1 1 2 3 0 tComp 10485760 (tTxn .rdS (some (.tile 2)) (.peer 0) .s false .em (some (.tile 1))) (tDir { st := .bSnp, txn := some (tTxn .rdS (some (.tile 2)) (.peer 0) .s false .em (some (.tile 1))), owner := some (.peer 0) }) (by decide +kernel) rfl rfl rfl).2.2.2.2.2.1 0 .s rfl rfl rfl rfl rfl),
    Completes.runs ((h.1 1 2 3 0 tComp 10485760 (tTxn .rdX (some (.tile 2)) (.tile 1) .inv false .em (some (.tile 1))) (tDir { st := .bSnp, txn := some (tTxn .rdX (some (.tile 2)) (.tile 1) .inv false .em (some (.tile 1))) }) (by decide +kernel) rfl rfl rfl).2.2.2.2.2.2 .inv (by decide +kernel) (by decide +kernel) (by decide +kernel)),
    Completes.runs (h.2 (tHdr 0x89 3) 0 3 tComp 10485760 _ (tDir { st := .em, owner := some (.host 3) }) (by decide +kernel) (by decide +kernel) (by decide +kernel) (by decide +kernel) rfl rfl (by decide +kernel) rfl)⟩

/-- The host's window at 4 GiB, and its request of the first line. -/
def tHM (d : DirLine) (l : List HostSnp) : State :=
  { withRegs [(PRT_AGENT_BI_ID 0 2, 0x55), (PWR_RETAIN_SELF_REFRESH, 0)] tH with prt := { hdm := [(2, ⟨0x100000000, 4194304⟩)] }, coh := { dir := if d = {} then [] else [(lineKey 3 0, d)], hostSnps := l } }

/-- See `tHM`. -/
def tReq (bi : BitVec 12) : HostReq := { port := 0, biId := bi, hpa := 0x100000000, data := 9, mask := 2 }

/-- A snoop of that host. -/
def tHSnp (k : Snp) : HostSnp := { port := 0, entry := 2, slot := 3, line := 0, snp := k }

theorem test_meets_CxlMemRequests (h : Obligations.CxlMemRequests) :
    Runs (.memRdData (tReq 0x55)) (tHM {} []) ∧
    Runs (.memRd (tReq 0x55) true .a) (tHM {} []) ∧
    Runs (.memRd (tReq 0x55) false .i) (tHM {} []) ∧
    Runs (.memInv (tReq 0x55) true .a) (tHM {} []) ∧
    Runs (.memWr (tReq 0x55) true .i) (tHM {} []) ∧
    Runs (.memWr (tReq 0x55) false .i) (tHM {} []) ∧
    Runs (.biRspI (tReq 0x55) false) (tHM { st := .bSnp, txn := some (tTxn .rdX (some (.tile 2)) (.host 1) .inv false .em (some (.tile 2))) } [tHSnp .inv]) ∧
    Runs (.biRspS (tReq 0x55) false) (tHM { st := .bSnp, txn := some (tTxn .rdS (some (.tile 2)) (.host 1) .s false .sf (none)) } [tHSnp .s]) ∧
    Runs (.biRspE (tReq 0x55) false) (tHM { st := .bSnp, txn := some (tTxn .rdCur none (.host 1) .cur false .em (some (.host 1))) } [tHSnp .cur]) ∧
    Runs (.biConflict (tReq 0x55)) (tHM { st := .bSnp, txn := some (tTxn .rdX (some (.tile 2)) (.host 1) .inv false .em (some (.tile 2))) } [tHSnp .inv]) ∧
    Runs (.memSpecRd (tReq 0)) (tHM {} []) ∧
    Runs (.memRdData (tReq 0)) (tHM {} []) ∧
    Runs (.configRequest 0) tH :=
  ⟨Completes.runs (((h.1 (tReq 0x55) 2 3 tComp 10485760 0 (tHM {} []) (by decide +kernel)).1 (by decide +kernel) (by decide +kernel)).1),
    Completes.runs (((h.1 (tReq 0x55) 2 3 tComp 10485760 0 (tHM {} []) (by decide +kernel)).1 (by decide +kernel) (by decide +kernel)).2.1),
    Completes.runs (((h.1 (tReq 0x55) 2 3 tComp 10485760 0 (tHM {} []) (by decide +kernel)).1 (by decide +kernel) (by decide +kernel)).2.2.1),
    Completes.runs (((h.1 (tReq 0x55) 2 3 tComp 10485760 0 (tHM {} []) (by decide +kernel)).1 (by decide +kernel) (by decide +kernel)).2.2.2.1 true),
    Completes.runs (((h.1 (tReq 0x55) 2 3 tComp 10485760 0 (tHM {} []) (by decide +kernel)).1 (by decide +kernel) (by decide +kernel)).2.2.2.2.1 .i),
    Completes.runs (((h.1 (tReq 0x55) 2 3 tComp 10485760 0 (tHM {} []) (by decide +kernel)).1 (by decide +kernel) (by decide +kernel)).2.2.2.2.2 .i),
    Completes.runs (((h.1 (tReq 0x55) 2 3 tComp 10485760 0 (tHM { st := .bSnp, txn := some (tTxn .rdX (some (.tile 2)) (.host 1) .inv false .em (some (.tile 2))) } [tHSnp .inv]) (by decide +kernel)).2 2 (tTxn .rdX (some (.tile 2)) (.host 1) .inv false .em (some (.tile 2))) (tHSnp .inv) (by decide +kernel) (by decide +kernel) (by decide +kernel) (by decide +kernel) (by decide +kernel) (by decide +kernel) (by decide +kernel) (by decide +kernel) (by decide +kernel) (by decide +kernel) (by decide +kernel) (by decide +kernel) ⟨_, rfl⟩ (by decide +kernel)).1 (by decide +kernel) (by decide +kernel) (by decide +kernel) (by decide +kernel)),
    Completes.runs (((h.1 (tReq 0x55) 2 3 tComp 10485760 0 (tHM { st := .bSnp, txn := some (tTxn .rdS (some (.tile 2)) (.host 1) .s false .sf (none)) } [tHSnp .s]) (by decide +kernel)).2 2 (tTxn .rdS (some (.tile 2)) (.host 1) .s false .sf (none)) (tHSnp .s) (by decide +kernel) (by decide +kernel) (by decide +kernel) (by decide +kernel) (by decide +kernel) (by decide +kernel) (by decide +kernel) (by decide +kernel) (by decide +kernel) (by decide +kernel) (by decide +kernel) (by decide +kernel) ⟨_, rfl⟩ (by decide +kernel)).2.1 (by decide +kernel) (by decide +kernel) (by decide +kernel) (by decide +kernel) (by decide +kernel)),
    Completes.runs (((h.1 (tReq 0x55) 2 3 tComp 10485760 0 (tHM { st := .bSnp, txn := some (tTxn .rdCur none (.host 1) .cur false .em (some (.host 1))) } [tHSnp .cur]) (by decide +kernel)).2 2 (tTxn .rdCur none (.host 1) .cur false .em (some (.host 1))) (tHSnp .cur) (by decide +kernel) (by decide +kernel) (by decide +kernel) (by decide +kernel) (by decide +kernel) (by decide +kernel) (by decide +kernel) (by decide +kernel) (by decide +kernel) (by decide +kernel) (by decide +kernel) (by decide +kernel) ⟨_, rfl⟩ (by decide +kernel)).2.2.1 (by decide +kernel) (by decide +kernel) (by decide +kernel) (by decide +kernel) (by decide +kernel) (by decide +kernel) (by decide +kernel)),
    Completes.runs (((h.1 (tReq 0x55) 2 3 tComp 10485760 0 (tHM { st := .bSnp, txn := some (tTxn .rdX (some (.tile 2)) (.host 1) .inv false .em (some (.tile 2))) } [tHSnp .inv]) (by decide +kernel)).2 2 (tTxn .rdX (some (.tile 2)) (.host 1) .inv false .em (some (.tile 2))) (tHSnp .inv) (by decide +kernel) (by decide +kernel) (by decide +kernel) (by decide +kernel) (by decide +kernel) (by decide +kernel) (by decide +kernel) (by decide +kernel) (by decide +kernel) (by decide +kernel) (by decide +kernel) (by decide +kernel) ⟨_, rfl⟩ (by decide +kernel)).2.2.2),
    Completes.runs ((h.2.1 (tReq 0) (tHM {} [])).2),
    Completes.runs (h.2.2.1 (tReq 0) (tHM {} []) (by decide +kernel) (by decide +kernel) (by decide +kernel) (by decide +kernel) (by decide +kernel)),
    Completes.runs (h.2.2.2 0 tH (by decide +kernel) (by decide +kernel))⟩

/-- Port 4 is a fabric port whose link is up, with two flits not yet acknowledged. -/
def tF : State :=
  { withRegs [(PRT_STATUS_ROLE 4, 3), (PRT_STATUS_LINK_UP 4, 1)] tS with fab := { links := [(4, { txSeq := 7, replay := [(5, [1]), (6, [2])] })] } }

/-- A flit of a type with number 0, acknowledging 5. -/
abbrev tFlit (typ : Nat) (l : List (BitVec 128)) : BitVec 2048 := mkFlit 0 5 typ 0 l

/-- A packet of one slot. -/
def tPkt (inc : BitVec 16) : Pkt := ⟨{ tHdr 0x4A 0 with srcInc := inc }, []⟩

theorem tPkt_read (inc : BitVec 16) (h : inc = 0 ∨ inc = 9) : takePkts 16 (flitSlots (tFlit 1 (pktSlots (tPkt inc)))) = ([tPkt inc], []) := by
  rw [flitSlots_mkFlit]
  rcases h with rfl | rfl <;> decide +kernel

theorem test_meets_FlitsOnALink (h : Obligations.FlitsOnALink) :
    Runs (.dataFlit 4 (tFlit 1 (pktSlots (tPkt 0))) true) tF ∧
    Runs (.dataFlit 4 (tFlit 1 (pktSlots (tPkt 9))) true) tF ∧
    Runs (.idleFlit 4 (tFlit 0 []) true) tF ∧
    Runs (.nakFlit 4 (tFlit 2 []) true) tF ∧
    Runs (.auditFlit 4 (tFlit 3 []) true [(0, poolSize 0)]) tF ∧
    Runs (.auditFlit 4 (tFlit 3 []) true [(0, 1)]) tF ∧
    Runs (.dataFlit 4 0 false) tF ∧
    Runs (.idleFlit 4 0 false) tF ∧
    Runs (.nakFlit 4 0 false) tF ∧
    Runs (.auditFlit 4 0 false []) tF ∧
    Runs (.auditFlitTimer 4) tF :=
  ⟨Completes.runs (((h 4 (tFlit 1 (pktSlots (tPkt 0))) true tF (by decide +kernel)).1 (tPkt 0) (flitOk_mkFlit _ _ _ _ _ (by decide +kernel)) (flitType_mkFlit _ _ _ _ _ (by decide +kernel)) (by rw [flitSeq_mkFlit]; rfl) rfl (tPkt_read 0 (.inl rfl)) (by decide +kernel) (by decide +kernel)).1 (by decide +kernel)),
    Completes.runs (((h 4 (tFlit 1 (pktSlots (tPkt 9))) true tF (by decide +kernel)).1 (tPkt 9) (flitOk_mkFlit _ _ _ _ _ (by decide +kernel)) (flitType_mkFlit _ _ _ _ _ (by decide +kernel)) (by rw [flitSeq_mkFlit]; rfl) rfl (tPkt_read 9 (.inr rfl)) (by decide +kernel) (by decide +kernel)).2 (by decide +kernel)),
    Completes.runs ((h 4 (tFlit 0 []) true tF (by decide +kernel)).2.1 (flitOk_mkFlit _ _ _ _ _ (by decide +kernel)) (flitType_mkFlit _ _ _ _ _ (by decide +kernel)) (by rw [flitSeq_mkFlit]; rfl) (by decide +kernel)),
    Completes.runs ((h 4 (tFlit 2 []) true tF (by decide +kernel)).2.2.1 (flitOk_mkFlit _ _ _ _ _ (by decide +kernel)) (flitType_mkFlit _ _ _ _ _ (by decide +kernel)) (by decide +kernel) (by decide +kernel) (by decide +kernel)),
    Completes.runs (((h 4 (tFlit 3 []) true tF (by decide +kernel)).2.2.2.1 [(0, poolSize 0)] (flitOk_mkFlit _ _ _ _ _ (by decide +kernel)) (flitType_mkFlit _ _ _ _ _ (by decide +kernel))).1 (by decide +kernel) (by decide +kernel)),
    Completes.runs (((h 4 (tFlit 3 []) true tF (by decide +kernel)).2.2.2.1 [(0, 1)] (flitOk_mkFlit _ _ _ _ _ (by decide +kernel)) (flitType_mkFlit _ _ _ _ _ (by decide +kernel))).2 (by decide +kernel)),
    Completes.runs (((h 4 0 false tF (by decide +kernel)).2.2.2.2.1 rfl (by decide +kernel)).1),
    Completes.runs (((h 4 0 false tF (by decide +kernel)).2.2.2.2.1 rfl (by decide +kernel)).2.1),
    Completes.runs (((h 4 0 false tF (by decide +kernel)).2.2.2.2.1 rfl (by decide +kernel)).2.2.1),
    Completes.runs (((h 4 0 false tF (by decide +kernel)).2.2.2.2.1 rfl (by decide +kernel)).2.2.2 []),
    Completes.runs ((h 4 0 false tF (by decide +kernel)).2.2.2.2.2)⟩

/-- Port 4 leads to node 5. -/
def tRoute : State := withRegs [(FAB_ROUTE_PRIM_VALID 5, 1), (FAB_ROUTE_PRIMARY 5, 4)] tF

theorem test_meets_LinksGoDownAndReconcile (h : Obligations.LinksGoDownAndReconcile) :
    Runs (.linkSilence 4) (withRegs [(FAB_ROUTE_ALT_VALID 5, 1), (FAB_ROUTE_ALTERNATE 5, 6)] tRoute) ∧
    Runs (.reconcile 6 (tHdr 0x86 0)) ({ tRoute with fab := { links := [(6, { down := true, reconciling := true, queue := [⟨{ tHdr 0x4A 0 with dst := 5, src := 0 }, []⟩] })] } }) ∧
    Runs (.reconcileTimeout 6) ({ tRoute with fab := { links := [(6, { down := true, reconciling := true, queue := [⟨{ tHdr 0x01 0 with dst := 5, src := 0 }, []⟩] })] } }) :=
  ⟨Completes.runs (h.1 4 (withRegs [(FAB_ROUTE_ALT_VALID 5, 1), (FAB_ROUTE_ALTERNATE 5, 6)] tRoute) (by decide +kernel)),
    Completes.runs (h.2.1 6 4 (tHdr 0x86 0) ⟨{ tHdr 0x4A 0 with dst := 5, src := 0 }, []⟩ { tRoute with fab := { links := [(6, { down := true, reconciling := true, queue := [⟨{ tHdr 0x4A 0 with dst := 5, src := 0 }, []⟩] })] } } (by decide +kernel) (by decide +kernel) (by decide +kernel) (by decide +kernel) (by decide +kernel) (by decide +kernel) (by decide +kernel)),
    Completes.runs (h.2.2 6 { tRoute with fab := { links := [(6, { down := true, reconciling := true, queue := [⟨{ tHdr 0x01 0 with dst := 5, src := 0 }, []⟩] })] } } (by decide +kernel))⟩

/-- Node 5 is reached by port 4, and a transaction with it has tag 0. -/
def tTag (u : TagUse) (k : Option Pkt) : State :=
  let f := { tRoute.fab with tags := [(0, ⟨5, u, k⟩)] }
  { tTier with regs := tRoute.regs, fab := f }

/-- The first four slots of a descriptor. -/
def tSlots (raw : BitVec 1024) : List (BitVec 128) := (List.range 4).map (fun i => BitVec.ofNat 128 (raw.toNat / 2 ^ (128 * i)))

/-- Packets to node 5 are held behind fences. -/
def tHeld (fences : Nat) (pkts : List Pkt) : State :=
  let f := { tRoute.fab with held := [⟨5, pkts, fences, []⟩] }
  { tRoute with fab := f }

theorem test_meets_BulkTransfersAndTheirEnds (h : Obligations.BulkTransfersAndTheirEnds) :
    Runs (.bulkRd (tHdr 0x0B 0)) tRoute ∧
    Runs (.bulkWr ⟨tHdr 0x60 0, lineSlots 9⟩) tRoute ∧
    Runs (.bulkData ⟨tHdr 0x61 0, lineSlots 9⟩) (tTag (.access 1) none) ∧
    Runs (.atomData ⟨tHdr 0x4B 0, [9]⟩) (tTag (.access 1) none) ∧
    Runs (.curData ⟨tHdr 0x4C 0, lineSlots 9⟩) (tTag (.access 1) none) ∧
    Runs (.wrCmp (tHdr 0x4A 0)) (tTag (.access 1) none) ∧
    Runs (.wrCmp (tHdr 0x4A 0)) (tTag (.tileOp 2 3 0 4) none) ∧
    Runs (.atomData ⟨tHdr 0x4B 0, [9]⟩) (tTag (.tileOp 2 3 0 5) none) ∧
    Runs (.curData ⟨tHdr 0x4C 0, lineSlots 9⟩) (tTag (.tileOp 2 3 0 3) none) ∧
    Runs (.nak { tHdr 0x4D 0 with reason := 5 }) (tTag (.access 1) none) ∧
    Runs (.nak { tHdr 0x4D 0 with reason := 3 }) (tTag (.access 1) (some ⟨{ tHdr 0x0F 0 with dst := 5, src := 0 }, []⟩)) :=
  ⟨Completes.runs (h.1 (tHdr 0x0B 0) tComp 10485760 4 tRoute (by decide +kernel) (by decide +kernel) (by decide +kernel) (by decide +kernel) (by decide +kernel) (by decide +kernel) (by decide +kernel) (by decide +kernel)),
    Completes.runs (h.2.1 ⟨tHdr 0x60 0, lineSlots 9⟩ tComp 10485760 4 tRoute (by decide +kernel) (by decide +kernel) (by decide +kernel) (by decide +kernel) (by decide +kernel) (by decide +kernel) (by decide +kernel) (by decide +kernel) (by decide +kernel)),
    Completes.runs ((h.2.2.1 ⟨tHdr 0x61 0, lineSlots 9⟩ 5 1 none (tTag (.access 1) none) rfl).1 (by decide +kernel)),
    Completes.runs ((h.2.2.1 ⟨tHdr 0x4B 0, [9]⟩ 5 1 none (tTag (.access 1) none) rfl).2.1 (by decide +kernel)),
    Completes.runs ((h.2.2.1 ⟨tHdr 0x4C 0, lineSlots 9⟩ 5 1 none (tTag (.access 1) none) rfl).2.2.1 (by decide +kernel)),
    Completes.runs ((h.2.2.1 ⟨tHdr 0x4A 0, []⟩ 5 1 none (tTag (.access 1) none) rfl).2.2.2 (by decide +kernel)),
    Completes.runs ((h.2.2.2.1 ⟨tHdr 0x4A 0, []⟩ 5 2 3 0 4 none (tTag (.tileOp 2 3 0 4) none) rfl).1 (by decide +kernel)),
    Completes.runs ((h.2.2.2.1 ⟨tHdr 0x4B 0, [9]⟩ 5 2 3 0 5 none (tTag (.tileOp 2 3 0 5) none) rfl).2.1 (by decide +kernel)),
    Completes.runs ((h.2.2.2.1 ⟨tHdr 0x4C 0, lineSlots 9⟩ 5 2 3 0 3 none (tTag (.tileOp 2 3 0 3) none) rfl).2.2 (by decide +kernel)),
    Completes.runs (h.2.2.2.2.1 { tHdr 0x4D 0 with reason := 5 } 5 1 none _ _ (tTag (.access 1) none) (by decide +kernel) (by decide +kernel) rfl rfl rfl (by decide +kernel) (by decide +kernel)),
    Completes.runs (h.2.2.2.2.2 { tHdr 0x4D 0 with reason := 3 } 5 4 (.access 1) ⟨{ tHdr 0x0F 0 with dst := 5, src := 0 }, []⟩ (tTag (.access 1) (some ⟨{ tHdr 0x0F 0 with dst := 5, src := 0 }, []⟩)) (by decide +kernel) (by decide +kernel) rfl (by decide +kernel) (by decide +kernel) (by decide +kernel))⟩

theorem test_meets_RoutesFencesAndEnginesOfOthers (h : Obligations.RoutesFencesAndEnginesOfOthers) :
    Runs (.fabRouteWrite .mgmt 5 ⟨0, true, 0x10006⟩) tRoute ∧
    Runs (.routeSet ⟨tHdr 0x81 0x1005, [0x10006, 0]⟩) tRoute ∧
    Runs (.fence (tHdr 0x0F 0)) tRoute ∧
    Runs (.fence (tHdr 0x6F 0)) tRoute ∧
    Runs (.fenceAck (tHdr 0x87 0)) (tHeld 2 []) ∧
    Runs (.fenceAck (tHdr 0x87 0)) (tHeld 1 [⟨{ tHdr 0x0F 0 with dst := 5, src := 0 }, []⟩]) ∧
    Runs (.engFwd ⟨tHdr 0x0C 0, tSlots (tRaw 0x40 0 [(24, 4096)])⟩) tRoute ∧
    Runs (.engCmp ⟨tHdr 0x4E 0, [0x1200000000, 0]⟩) (tTag (.engine 4) none) ∧
    Runs (.jobStop { tHdr 0x82 0 with tag := 6 }) (withRegs [(SLC_CTL_JOB 8, 6), (SLC_STATUS_STATE 8, 1)] { tE 0 with slc := { (tE 0).slc with sluices := [(8, {})] } }) ∧
    Runs .hotlineWindowEnd (tDir { st := .s }) :=
  ⟨Completes.runs (h.1 .mgmt 5 ⟨0, true, 0x10006⟩ ((regAt 0x408028).getD []) tRoute (by decide +kernel) (by decide +kernel) (by decide +kernel)),
    Completes.runs (h.2.1 ⟨tHdr 0x81 0x1005, [0x10006, 0]⟩ tRoute (by decide +kernel) (by decide +kernel)),
    Completes.runs (h.2.2.1 0x0F (by decide +kernel) (tHdr 0x0F 0) 4 tRoute (by decide +kernel) (by decide +kernel)),
    Completes.runs (h.2.2.1 0x6F (by decide +kernel) (tHdr 0x6F 0) 4 tRoute (by decide +kernel) (by decide +kernel)),
    Completes.runs ((h.2.2.2.1 (tHdr 0x87 0) _ (tHeld 2 []) (by decide +kernel) rfl (by decide +kernel)).1 (by decide +kernel)),
    Completes.runs ((h.2.2.2.1 (tHdr 0x87 0) _ (tHeld 1 [⟨{ tHdr 0x0F 0 with dst := 5, src := 0 }, []⟩]) (by decide +kernel) rfl (by decide +kernel)).2 ⟨{ tHdr 0x0F 0 with dst := 5, src := 0 }, []⟩ 4 (by decide +kernel) (by decide +kernel) (by decide +kernel) (by decide +kernel)),
    Completes.runs (h.2.2.2.2.1 ⟨tHdr 0x0C 0, tSlots (tRaw 0x40 0 [(24, 4096)])⟩ tComp 4 tRoute (by decide +kernel) (by decide +kernel) (by decide +kernel) (by decide +kernel) (by decide +kernel) (by decide +kernel) (by decide +kernel) (by decide +kernel)),
    Completes.runs (h.2.2.2.2.2.1 ⟨tHdr 0x4E 0, [0x1200000000, 0]⟩ 5 4 none _ tComp (tTag (.engine 4) none) (by decide +kernel) rfl rfl (by decide +kernel) (by decide +kernel) (by decide +kernel) (by decide +kernel) (by decide +kernel)),
    Completes.runs (h.2.2.2.2.2.2.1 { tHdr 0x82 0 with tag := 6 } tComp (withRegs [(SLC_CTL_JOB 8, 6), (SLC_STATUS_STATE 8, 1)] { tE 0 with slc := { (tE 0).slc with sluices := [(8, {})] } }) (by decide +kernel) (by decide +kernel) (by decide +kernel) (by decide +kernel)),
    Completes.runs (h.2.2.2.2.2.2.2 (tDir { st := .s }))⟩

theorem test_meets_NodesAndManagementPackets (h : Obligations.NodesAndManagementPackets) :
    Runs (.incarnation (tHdr 0x85 0x30005)) tRoute ∧
    Runs (.incarnation (tHdr 0x85 0x30000)) tRoute ∧
    Runs (.heartbeat (tHdr 0x83 0)) tRoute ∧
    Runs .heartbeatSend (withRegs [(FAB_NODE_JOINED, 1), (FAB_FORM_MASTER_NODE, 5)] tRoute) ∧
    Runs .heartbeatSend (withRegs [(FAB_NODE_JOINED, 1), (FAB_NODE_MASTER, 1), (FAB_FORM_STANDBY_NODE, 5)] tRoute) ∧
    Runs (.heartbeatMiss 5 true) tRoute ∧
    Runs (.heartbeatMiss 5 false) ({ withRegs [(FAB_NODE_MASTER, 1)] tRoute with fab := { tRoute.fab with missed := [(5, 1)] } }) ∧
    Runs (.heartbeatMiss 5 false) ({ withRegs [(FAB_NODE_MASTER, 1)] tRoute with fab := { tRoute.fab with missed := [(5, 2)] } }) ∧
    Runs (.nodeDown 5 none) ({ tE 0 with mem := { tS.mem with tier := [{ id := 1, tier := .peer 5, slot := 3, desc := 4, piece := 0 }] }, fab := { tags := [(0, ⟨5, .access 1, none⟩)] } }) ∧
    Runs .managementResend ({ tRoute with fab := { tRoute.fab with resend := [⟨tHdr 0x83 0, []⟩] } }) ∧
    Runs (.poolEvent ⟨tHdr 0x88 0, [0x27, 0]⟩) (withRegs [(FAB_NODE_MASTER, 1)] tRoute) ∧
    Runs (.poolEvent ⟨tHdr 0x88 0x3003, [77, 0]⟩) (withRegs [(FAB_NODE_MASTER, 1)] tRoute) :=
  ⟨Completes.runs (h.1 (tHdr 0x85 0x30005) tRoute (by decide +kernel)),
    Completes.runs (h.1 (tHdr 0x85 0x30000) tRoute (by decide +kernel)),
    Completes.runs (h.2.1 (tHdr 0x83 0) tRoute (by decide +kernel)),
    Completes.runs (h.2.2.1 4 (withRegs [(FAB_NODE_JOINED, 1), (FAB_FORM_MASTER_NODE, 5)] tRoute) (by decide +kernel) (by decide +kernel) (by decide +kernel)),
    Completes.runs (h.2.2.1 4 (withRegs [(FAB_NODE_JOINED, 1), (FAB_NODE_MASTER, 1), (FAB_FORM_STANDBY_NODE, 5)] tRoute) (by decide +kernel) (by decide +kernel) (by decide +kernel)),
    Completes.runs ((h.2.2.2.1 5 true tRoute).1 (by decide +kernel)),
    Completes.runs ((h.2.2.2.1 5 false { withRegs [(FAB_NODE_MASTER, 1)] tRoute with fab := { tRoute.fab with missed := [(5, 1)] } }).1 (by decide +kernel)),
    Completes.runs ((h.2.2.2.1 5 false { withRegs [(FAB_NODE_MASTER, 1)] tRoute with fab := { tRoute.fab with missed := [(5, 2)] } }).2 (by decide +kernel) (by decide +kernel) (by decide +kernel) (by decide +kernel) (by decide +kernel) (by decide +kernel) (by decide +kernel) (by decide +kernel) (by decide +kernel)),
    Completes.runs (h.2.2.2.2.1 5 0 none _ _ { tE 0 with mem := { tS.mem with tier := [{ id := 1, tier := .peer 5, slot := 3, desc := 4, piece := 0 }] }, fab := { tags := [(0, ⟨5, .access 1, none⟩)] } } (by decide +kernel) (by decide +kernel) rfl rfl (by decide +kernel) rfl (by decide +kernel) (by decide +kernel)),
    Completes.runs (h.2.2.2.2.2.1 { tRoute with fab := { tRoute.fab with resend := [⟨tHdr 0x83 0, []⟩] } } (by decide +kernel)),
    Completes.runs ((h.2.2.2.2.2.2 ⟨tHdr 0x88 0, [0x27, 0]⟩ (withRegs [(FAB_NODE_MASTER, 1)] tRoute) (by decide +kernel) (by decide +kernel)).1 (by decide +kernel) (by decide +kernel)),
    Completes.runs ((h.2.2.2.2.2.2 ⟨tHdr 0x88 0x3003, [77, 0]⟩ (withRegs [(FAB_NODE_MASTER, 1)] tRoute) (by decide +kernel) (by decide +kernel)).2 (by decide +kernel) (by decide +kernel))⟩

theorem tSlots_zero : ∀ x ∈ ([0, 0] : List (BitVec 512)), bitAt x.toNat 16 = false ∧ bitAt x.toNat 17 = false := by
  intro x hx
  have e : x.toNat = 0 := by rw [show x = 0 by simpa using hx]; exact BitVec.toNat_zero
  rw [e]; decide

/-- Sluice 8 in a state, set up so that it can be enabled, of a host's composition. -/
def tSl (st : Nat) (s : State) : State :=
  withRegs [(SLC_FEAT_ACCEPT 8 0, 5), (CMP_FEAT_OFFER 3 0, 5), (CTU_ASID_VALID 3072, 1), (SLC_IRQ_VECTOR 8, 256), (SLC_STATUS_STATE 8, st)] s

/-- That host's state with a descriptor of the sluice in flight. -/
def tHE : State := { tH with slc := { descs := [tDesc 0], nextDesc := 5 } }

theorem test_meets_SluiceRegisterCommands (h : Obligations.SluiceRegisterCommands) :
    Runs (.sluiceEnable tSrc 0 0x0C00000000000846) (tSl 0 tH) ∧
    Runs (.sluiceEnable tSrc 0 0) (tSl 0 tH) ∧
    Runs (.sluiceDisable tSrc 0 0) (tSl 1 tH) ∧
    Runs (.sluiceDisable tSrc 0 0) (tSl 1 tHE) ∧
    Runs (.sqDoorbell tSrc 0 15) (tSl 1 tH) ∧
    Runs (.sqDoorbell tSrc 0 16) (tSl 1 tH) ∧
    Runs (.cqDoorbell tSrc 0 0) (tSl 1 tH) ∧
    Runs (.cqDoorbell tSrc 0 16) (tSl 1 tH) ∧
    Runs (.slcIrqWrite tSrc 3 1) tH :=
  ⟨Completes.runs (h.1 tSrc 0 0x0C00000000000846 tComp (tSl 0 tH) 3 ((regAt (2 ^ 24 + 256 * 8)).getD []) ⟨0, 0x100, 2, rfl, (by decide +kernel), (by decide +kernel), (by decide +kernel), (by decide +kernel), (by decide +kernel)⟩ (by decide +kernel) (by decide +kernel) (by decide +kernel) (by decide +kernel) (by decide +kernel)),
    Completes.runs (h.1 tSrc 0 0 tComp (tSl 0 tH) 3 ((regAt (2 ^ 24 + 256 * 8)).getD []) ⟨0, 0x100, 2, rfl, (by decide +kernel), (by decide +kernel), (by decide +kernel), (by decide +kernel), (by decide +kernel)⟩ (by decide +kernel) (by decide +kernel) (by decide +kernel) (by decide +kernel) (by decide +kernel)),
    Completes.runs (h.2.1 tSrc 0 0 tComp (tSl 1 tH) 3 ⟨0, 0x100, 2, rfl, (by decide +kernel), (by decide +kernel), (by decide +kernel), (by decide +kernel), (by decide +kernel)⟩ (by decide +kernel) (by decide +kernel) (by decide +kernel) (by decide +kernel)),
    Completes.runs (h.2.1 tSrc 0 0 tComp (tSl 1 tHE) 3 ⟨0, 0x100, 2, rfl, (by decide +kernel), (by decide +kernel), (by decide +kernel), (by decide +kernel), (by decide +kernel)⟩ (by decide +kernel) (by decide +kernel) (by decide +kernel) (by decide +kernel)),
    Completes.runs (h.2.2.1 tSrc 0 15 tComp (tSl 1 tH) 3 ⟨0, 0x100, 2, rfl, (by decide +kernel), (by decide +kernel), (by decide +kernel), (by decide +kernel), (by decide +kernel)⟩ (by decide +kernel) (by decide +kernel)),
    Completes.runs (h.2.2.1 tSrc 0 16 tComp (tSl 1 tH) 3 ⟨0, 0x100, 2, rfl, (by decide +kernel), (by decide +kernel), (by decide +kernel), (by decide +kernel), (by decide +kernel)⟩ (by decide +kernel) (by decide +kernel)),
    Completes.runs (h.2.2.2.1 tSrc 0 0 tComp (tSl 1 tH) 3 ⟨0, 0x100, 2, rfl, (by decide +kernel), (by decide +kernel), (by decide +kernel), (by decide +kernel), (by decide +kernel)⟩ (by decide +kernel) (by decide +kernel) (by decide +kernel)),
    Completes.runs (h.2.2.2.1 tSrc 0 16 tComp (tSl 1 tH) 3 ⟨0, 0x100, 2, rfl, (by decide +kernel), (by decide +kernel), (by decide +kernel), (by decide +kernel), (by decide +kernel)⟩ (by decide +kernel) (by decide +kernel) (by decide +kernel)),
    Completes.runs (h.2.2.2.2 tSrc 3 1 tComp tH 3 tH_hostOf (by decide +kernel) (by decide +kernel) (by decide +kernel) (by decide +kernel) (by decide +kernel))⟩

theorem test_meets_SluicesFetchStartAndSignal (h : Obligations.SluicesFetchStartAndSignal) :
    Runs .descriptorFetch (withRegs [(SLC_SQ_TAIL_TAIL 8, 3)] { tSl 1 tH with slc := { sluices := [(8, {})] } }) ∧
    Runs (.sluiceAging 8) (withRegs [(SLC_SQ_TAIL_TAIL 8, 3)] { tSl 1 tH with slc := { sluices := [(8, {})] } }) ∧
    Runs (.fetchReturn 8 [0, 0] none) (withRegs [(SLC_CTL_SQ_LOC 8, 1)] (withRegs [(SLC_SQ_TAIL_TAIL 8, 3)] { tSl 1 tH with slc := { sluices := [(8, { fetching := some 2 })] } })) ∧
    Runs (.fetchReturn 8 [] (some 0)) (withRegs [(SLC_CTL_SQ_LOC 8, 1)] (withRegs [(SLC_SQ_TAIL_TAIL 8, 3)] { tSl 1 tH with slc := { sluices := [(8, { fetching := some 2 })] } })) ∧
    Runs (.descriptorStart 4) ({ tSl 1 tS with slc := { descs := [{ tDesc 0 with phase := .queued }], sluices := [(8, {})] } }) ∧
    Runs (.descriptorStart 4) (withRegs [(SLC_CTL_BW_CLASS 8, 3)] { tSl 1 tS with slc := { descs := [{ tDesc 0 with phase := .queued }], sluices := [(8, {})] } }) ∧
    Runs (.irqTimer 8) (withRegs [(SLC_IRQ_MODE 8, 2), (SLC_IRQ_TIMER_US 8, 5), (SLC_IRQ_ARMED 8, 1)] { tSl 1 tH with slc := { sluices := [(8, { timer := true, unsignalled := 1 })] } }) :=
  ⟨Completes.runs (h.1 (withRegs [(SLC_SQ_TAIL_TAIL 8, 3)] { tSl 1 tH with slc := { sluices := [(8, {})] } }) ⟨8, (by decide +kernel), (by decide +kernel)⟩),
    Completes.runs (h.2.1 8 (withRegs [(SLC_SQ_TAIL_TAIL 8, 3)] { tSl 1 tH with slc := { sluices := [(8, {})] } }) (by decide +kernel)),
    Completes.runs (h.2.2.1 8 [0, 0] tComp (withRegs [(SLC_CTL_SQ_LOC 8, 1)] (withRegs [(SLC_SQ_TAIL_TAIL 8, 3)] { tSl 1 tH with slc := { sluices := [(8, { fetching := some 2 })] } })) (by decide +kernel) (by decide +kernel) (by decide +kernel) (by decide +kernel) (by decide +kernel) tSlots_zero),
    Completes.runs (h.2.2.2.1 8 [] 1 tComp (withRegs [(SLC_CTL_SQ_LOC 8, 1)] (withRegs [(SLC_SQ_TAIL_TAIL 8, 3)] { tSl 1 tH with slc := { sluices := [(8, { fetching := some 2 })] } })) (by decide +kernel) (by decide +kernel) (by decide +kernel) (by decide +kernel) (by decide +kernel)),
    Completes.runs (h.2.2.2.2.1 4 _ tComp { tSl 1 tS with slc := { descs := [{ tDesc 0 with phase := .queued }], sluices := [(8, {})] } } rfl (by decide +kernel) (by decide +kernel) (by decide +kernel) (by decide +kernel) (by decide +kernel) (by decide +kernel) (by decide +kernel) (by decide +kernel) (by decide +kernel)),
    Completes.runs (h.2.2.2.2.1 4 _ tComp (withRegs [(SLC_CTL_BW_CLASS 8, 3)] { tSl 1 tS with slc := { descs := [{ tDesc 0 with phase := .queued }], sluices := [(8, {})] } }) rfl (by decide +kernel) (by decide +kernel) (by decide +kernel) (by decide +kernel) (by decide +kernel) (by decide +kernel) (by decide +kernel) (by decide +kernel) (by decide +kernel)),
    Completes.runs (h.2.2.2.2.2 8 tComp (withRegs [(SLC_IRQ_MODE 8, 2), (SLC_IRQ_TIMER_US 8, 5), (SLC_IRQ_ARMED 8, 1)] { tSl 1 tH with slc := { sluices := [(8, { timer := true, unsignalled := 1 })] } }) (by decide +kernel) (by decide +kernel) (by decide +kernel) (by decide +kernel) (by decide +kernel) (by decide +kernel) (by decide +kernel))⟩

theorem test_meets_CompletionRecordIsWritten (h : Obligations.CompletionRecordIsWritten) :
    Runs (.descriptorComplete 4) (withRegs [(SLC_CTL_CQ_LOC 8, 1), (SLC_STATUS_CQ_TAIL 8, 15)] { tH with slc := { descs := [{ tDesc 0 with slot := 3, phase := .finished, worked := true, status := 0, bytes := 64, replays := 1 }], sluices := [(8, {})] } }) ∧
    Runs (.descriptorComplete 4) (withRegs [(SLC_CTL_CQ_LOC 8, 1), (SLC_STATUS_CQ_TAIL 8, 14)] { tH with slc := { descs := [{ tDesc 0 with slot := 3, phase := .finished, worked := true, status := 0x13, bytes := 64, replays := 1 }], sluices := [(8, {})] } }) :=
  ⟨Completes.runs (h 4 _ tComp (withRegs [(SLC_CTL_CQ_LOC 8, 1), (SLC_STATUS_CQ_TAIL 8, 15)] { tH with slc := { descs := [{ tDesc 0 with slot := 3, phase := .finished, worked := true, status := 0, bytes := 64, replays := 1 }], sluices := [(8, {})] } }) rfl (by decide +kernel) (by decide +kernel) (by decide +kernel) (by decide +kernel) (by decide +kernel) (by decide +kernel) (by decide +kernel) (by decide +kernel) (by decide +kernel) (by decide +kernel) (by decide +kernel) (by decide +kernel) (by decide +kernel) (by decide +kernel) (by decide +kernel) (by decide +kernel)),
    Completes.runs (h 4 _ tComp (withRegs [(SLC_CTL_CQ_LOC 8, 1), (SLC_STATUS_CQ_TAIL 8, 14)] { tH with slc := { descs := [{ tDesc 0 with slot := 3, phase := .finished, worked := true, status := 0x13, bytes := 64, replays := 1 }], sluices := [(8, {})] } }) rfl (by decide +kernel) (by decide +kernel) (by decide +kernel) (by decide +kernel) (by decide +kernel) (by decide +kernel) (by decide +kernel) (by decide +kernel) (by decide +kernel) (by decide +kernel) (by decide +kernel) (by decide +kernel) (by decide +kernel) (by decide +kernel) (by decide +kernel) (by decide +kernel))⟩

theorem test_meets_AsidCommands (h : Obligations.AsidCommands) :
    Runs (.asidCreate tSrc 3 ⟨0, true, 3072⟩) tH ∧
    Runs (.asidDestroy tSrc 3 ⟨0, true, 3072⟩) (withRegs [(CTU_ASID_VALID 3072, 1)] tH) ∧
    Runs (.invalDrain tSrc 3 ⟨0, true, 3072⟩) (withRegs [(CTU_ASID_VALID 3072, 1)] tH) ∧
    Runs (.invalAbort tSrc 3 ⟨0, true, 3072⟩) (withRegs [(CTU_ASID_VALID 3072, 1)] tH) ∧
    Runs (.reroot tSrc 3 ⟨0, true, 3072⟩) (withRegs [(CTU_ASID_VALID 3072, 1)] tH) ∧
    Runs (.asidCreate tSrc 3 ⟨0, true, 5⟩) tH :=
  ⟨Completes.runs ((h tSrc 3 ⟨0, true, 3072⟩ tComp tH tH_hostOf (by decide +kernel) (by decide +kernel)).1 (by decide +kernel) (by decide +kernel) (by decide +kernel)),
    Completes.runs (((h tSrc 3 ⟨0, true, 3072⟩ tComp (withRegs [(CTU_ASID_VALID 3072, 1)] tH) ⟨0, 0x100, 2, rfl, (by decide +kernel), (by decide +kernel), (by decide +kernel), (by decide +kernel), (by decide +kernel)⟩ (by decide +kernel) (by decide +kernel)).2.1 (by decide +kernel) (by decide +kernel) (by decide +kernel)).1),
    Completes.runs (((h tSrc 3 ⟨0, true, 3072⟩ tComp (withRegs [(CTU_ASID_VALID 3072, 1)] tH) ⟨0, 0x100, 2, rfl, (by decide +kernel), (by decide +kernel), (by decide +kernel), (by decide +kernel), (by decide +kernel)⟩ (by decide +kernel) (by decide +kernel)).2.1 (by decide +kernel) (by decide +kernel) (by decide +kernel)).2.1),
    Completes.runs (((h tSrc 3 ⟨0, true, 3072⟩ tComp (withRegs [(CTU_ASID_VALID 3072, 1)] tH) ⟨0, 0x100, 2, rfl, (by decide +kernel), (by decide +kernel), (by decide +kernel), (by decide +kernel), (by decide +kernel)⟩ (by decide +kernel) (by decide +kernel)).2.1 (by decide +kernel) (by decide +kernel) (by decide +kernel)).2.2.1),
    Completes.runs (((h tSrc 3 ⟨0, true, 3072⟩ tComp (withRegs [(CTU_ASID_VALID 3072, 1)] tH) ⟨0, 0x100, 2, rfl, (by decide +kernel), (by decide +kernel), (by decide +kernel), (by decide +kernel), (by decide +kernel)⟩ (by decide +kernel) (by decide +kernel)).2.1 (by decide +kernel) (by decide +kernel) (by decide +kernel)).2.2.2 (by decide +kernel)),
    Completes.runs ((h tSrc 3 ⟨0, true, 5⟩ tComp tH tH_hostOf (by decide +kernel) (by decide +kernel)).2.2 (by decide +kernel))⟩

/-- A walk of ASID 3072 for virtual page 5 is under way, its last table at pool address 0x1000; entry 5 maps pool page 2, writable. -/
def tWalk : State :=
  { withBytes [(0xA01028, 0x13), (0xA01029, 0x20)] (withRegs [(CTU_ASID_VALID 3072, 1)] tS) with xl := { walks := [(3072, 5)], wcache := [⟨3072, 0, 0, 0x1000⟩] } }

/-- A walk that ends at a leaf, with the state it leaves. -/
theorem tWalk_leaf : walkAt tComp 3072 0x5000 (walkStart 3072 0x5000 (showCtu { tWalk with xl := { tWalk.xl with walks := [] } })).1
      (walkStart 3072 0x5000 (showCtu { tWalk with xl := { tWalk.xl with walks := [] } })).2 [] (showCtu { tWalk with xl := { tWalk.xl with walks := [] } })
    = (.leaf ⟨3072, 0x5000, 4096, .pool 0x2000, true⟩, fillTlb ⟨3072, 0x5000, 4096, .pool 0x2000, true⟩ (showCtu { tWalk with xl := { tWalk.xl with walks := [] } })) := by
  decide +kernel

/-- An invalidation of ASID 3072. -/
def tInv (cmd : Option Nat) (destroy : Bool) : State := { withRegs [(CTU_ASID_VALID 3072, 1), (CMP_ASID_CMD_GO 3, 1)] tS with xl := { invs := [⟨3072, true, cmd, destroy, [1]⟩] } }

theorem test_meets_WalksAndInvalidationsEnd (h : Obligations.WalksAndInvalidationsEnd) :
    Runs (.walkDone 3072 0x5000 []) tWalk ∧
    Runs (.invalComplete 3072) (tInv (some 3) true) ∧
    Runs (.invalComplete 3072) (tInv none false) ∧
    Runs (.xstoreRoom 4 100) ({ tS with slc := { descs := [{ tDesc 0 with phase := .noRoom }] } }) :=
  ⟨Completes.runs (h.1 3072 0x5000 [] tComp _ tWalk _ (by decide +kernel) (by decide +kernel) (by decide +kernel) (by decide +kernel) tWalk_leaf),
    Completes.runs (h.2.1 3072 _ (tInv (some 3) true) rfl (by decide +kernel) (by rintro _ ⟨⟩; decide)),
    Completes.runs (h.2.1 3072 _ (tInv none false) rfl (by decide +kernel) (by rintro _ ⟨⟩)),
    Completes.runs (h.2.2 4 100 _ { tS with slc := { descs := [{ tDesc 0 with phase := .noRoom }] } } rfl (by decide +kernel) (by decide +kernel) (by decide +kernel))⟩

/-- Pieces of descriptor 4, with the tile of pan 5 on. -/
def tPan (l : List Piece) : State := { withRegs [(TIL_STATE_POWER 0, 2)] (tE 0) with pan := { pieces := l, next := 6 } }

/-- A piece of descriptor 4 on pan 5. -/
def tPiece : Piece := { id := 6, desc := 4, pan := 5, on := 5 }

/-- A unit of descriptor 4 was restored and waits for its replay. -/
def tStruck (errors : Nat) : State :=
  let x := { tDesc 0 with started := true }
  { tPan [] with slc := { descs := [x] }, pan := { struck := [(4 * 2 ^ 32 + 1, ())], errors := [(4 * 2 ^ 32 + 1, errors)] } }

theorem test_meets_PiecesOnPans (h : Obligations.PiecesOnPans) :
    Runs (.pieceStart 4 5 [] [.far 3]) (tPan []) ∧
    Runs (.threadReady 6) (tPan [{ tPiece with parked := true, accs := [.far 3] }]) ∧
    Runs (.threadReady 6) (tPan [{ tPiece with parked := true }]) ∧
    Runs (.blockCommit 6 false) (tPan [{ tPiece with lines := [1] }]) ∧
    Runs (.blockCommit 6 true) (tPan [tPiece]) ∧
    Runs (.replay 4 1) (tStruck 1) :=
  ⟨Completes.runs (h.1 4 5 [] [.far 3] _ (tPan []) rfl (by decide +kernel) (by decide +kernel) (by decide +kernel) (by decide +kernel) (by decide +kernel) (by decide +kernel) (by decide +kernel)),
    Completes.runs (h.2.1 6 _ (tPan [{ tPiece with parked := true, accs := [.far 3] }]) rfl (by decide +kernel) (by decide +kernel)),
    Completes.runs (h.2.1 6 _ (tPan [{ tPiece with parked := true }]) rfl (by decide +kernel) (by decide +kernel)),
    Completes.runs ((h.2.2.1 6 _ _ (tPan [{ tPiece with lines := [1] }]) rfl (by decide +kernel) (by decide +kernel) (by decide +kernel) rfl (by decide +kernel) (by decide +kernel)).1),
    Completes.runs ((h.2.2.1 6 _ _ (tPan [tPiece]) rfl (by decide +kernel) (by decide +kernel) (by decide +kernel) rfl (by decide +kernel) (by decide +kernel)).2),
    Completes.runs (h.2.2.2 4 1 _ (tStruck 1) (by decide +kernel) rfl (by decide +kernel))⟩

theorem test_meets_PansThatFail (h : Obligations.PansThatFail) :
    Runs (.transientError 4 2 .vector 5 40) ({ tStruck 0 with pan := {} }) ∧
    Runs (.transientError 4 2 .vector 5 40) (withRegs [(RAS_CTL_SUSPECT_POLICY, 1)] ({ tStruck 0 with pan := {} })) ∧
    Runs (.transientError 4 1 .noc 5 40) (tStruck 2) ∧
    Runs (.spareSwitched 5 true) ({ withRegs [(spVault 0 0, 0xFF), (spVault 0 1, 0xFF)] (tPan []) with pan := { pieces := [], subst := [(5, 129)] } }) ∧
    Runs (.spareSwitched 5 false) ({ withRegs [(spVault 0 0, 0xFF), (spVault 0 1, 0xFF)] (tPan []) with pan := { pieces := [], subst := [(5, 128)] } }) ∧
    Runs (.panStallTimeout 5) ({ withRegs [(spVault 0 0, 0xFF), (spVault 0 1, 0xFF)] (tPan [tPiece]) with pan := { pieces := [tPiece] } }) ∧
    Runs (.strikeExpiry 5) ({ tS with pan := { strikes := [(5, 2)] } }) ∧
    Runs (.panClear .mgmt 5) ({ tS with pan := { strikes := [(5, 2)] } }) ∧
    Runs (.selftestStart 0) (withRegs [(PWR_DOMAIN_ON, 2 ^ 36)] (tPan [tPiece])) ∧
    Runs (.selftestEnd 0 []) ({ withRegs [(spVault 0 0, 0xFF), (spVault 0 1, 0xFF), (TIL_ADOPT_SELFTEST 0, 1)] (tPan []) with pan := { pieces := [] } }) ∧
    Runs (.selftestEnd 0 [127]) ({ withRegs [(spVault 0 0, 0xFF), (spVault 0 1, 0xFF), (TIL_ADOPT_SELFTEST 0, 1)] (tPan []) with pan := { pieces := [] } }) :=
  ⟨Completes.runs ((h.1 4 2 5 40 _ { tStruck 0 with pan := {} } rfl (by decide +kernel) (by decide +kernel) (by decide +kernel) (by decide +kernel)).1 (by decide +kernel) (by decide +kernel) (by decide +kernel) (by decide +kernel) (by decide +kernel)),
    Completes.runs ((h.1 4 2 5 40 _ (withRegs [(RAS_CTL_SUSPECT_POLICY, 1)] ({ tStruck 0 with pan := {} })) rfl (by decide +kernel) (by decide +kernel) (by decide +kernel) (by decide +kernel)).1 (by decide +kernel) (by decide +kernel) (by decide +kernel) (by decide +kernel) (by decide +kernel)),
    Completes.runs ((h.1 4 1 5 40 _ (tStruck 2) rfl (by decide +kernel) (by decide +kernel) (by decide +kernel) (by decide +kernel)).2 (by decide +kernel)),
    Completes.runs ((h.2.1 5 129 { withRegs [(spVault 0 0, 0xFF), (spVault 0 1, 0xFF)] (tPan []) with pan := { pieces := [], subst := [(5, 129)] } } (by decide +kernel) (by decide +kernel) (by decide +kernel)).1),
    Completes.runs ((h.2.1 5 128 { withRegs [(spVault 0 0, 0xFF), (spVault 0 1, 0xFF)] (tPan []) with pan := { pieces := [], subst := [(5, 128)] } } (by decide +kernel) (by decide +kernel) (by decide +kernel)).2 (by decide +kernel) (by decide +kernel) (by decide +kernel) (by decide +kernel) (by decide +kernel)),
    Completes.runs (h.2.2.1 5 0 { withRegs [(spVault 0 0, 0xFF), (spVault 0 1, 0xFF)] (tPan [tPiece]) with pan := { pieces := [tPiece] } } (by decide +kernel) (by decide +kernel) (by decide +kernel) (by decide +kernel) (by decide +kernel) (by decide +kernel)),
    Completes.runs (h.2.2.2.1 5 { tS with pan := { strikes := [(5, 2)] } }),
    Completes.runs (h.2.2.2.2.1 .mgmt 5 { tS with pan := { strikes := [(5, 2)] } } (by decide +kernel) (by decide +kernel) (by decide +kernel)),
    Completes.runs (h.2.2.2.2.2.1 0 (withRegs [(PWR_DOMAIN_ON, 2 ^ 36)] (tPan [tPiece])) (by decide +kernel) (by decide +kernel) (by decide +kernel) (by decide +kernel)),
    Completes.runs ((h.2.2.2.2.2.2 0 { withRegs [(spVault 0 0, 0xFF), (spVault 0 1, 0xFF), (TIL_ADOPT_SELFTEST 0, 1)] (tPan []) with pan := { pieces := [] } } (by decide +kernel) (by decide +kernel)).1),
    Completes.runs ((h.2.2.2.2.2.2 0 { withRegs [(spVault 0 0, 0xFF), (spVault 0 1, 0xFF), (TIL_ADOPT_SELFTEST 0, 1)] (tPan []) with pan := { pieces := [] } } (by decide +kernel) (by decide +kernel)).2 127 0 (by decide +kernel) (by decide +kernel) (by decide +kernel) (by decide +kernel) (by decide +kernel))⟩

/-- The composition with node 5 as a second member. -/
def tComp2 : Comp := { tComp with members := [0, 5] }

/-- A descriptor in flight on the composition with node 5 as its other member. -/
def tDesc2 (raw : BitVec 1024) : Desc := { tDesc raw with slot := 3 }

/-- The state with it; port 4 leads to node 5. -/
def tE2 (raw : BitVec 1024) : State := { tRoute with comps := [tComp2], slc := { descs := [tDesc2 raw], nextDesc := 5 } }

/-- Two elements 1.5 and 2.0 at pool address 0. -/
def tNums (s : State) : State := withBytes [(0xA00002, 0xC0), (0xA00003, 0x3F), (0xA00007, 0x40)] s

/-- A recipe of no operations that updates its first stream. -/
def tRecipe : BitVec 3072 := BitVec.ofNat 3072 (3 * 2 ^ 64 + 2 ^ 72)

theorem test_meets_ReduceOnOneSlosin (h : Obligations.ReduceOnOneSlosin) :
    Runs (.accumulate 4 {}) (tNums (tE (tRaw 1 2 [(13, 1), (14, 1), (24, 1), (32, 0x10040), (64, 0x10000), (72, 4), (80, 2), (88, 0x10000), (18, 0), (20, 0), (22, 1), (16, 9)]))) ∧
    Runs (.run 4 {}) (tNums { tE (tRaw 5 2 [(13, 1), (14, 1), (24, 1), (32, 0x10040), (64, 0x10000), (72, 4), (80, 0), (88, 0x10000), (18, 0), (20, 0), (22, 1), (16, 9)]) with slc := { descs := [{ tDesc (tRaw 5 2 [(13, 1), (14, 1), (24, 1), (32, 0x10040), (64, 0x10000), (72, 4), (80, 0), (88, 0x10000), (18, 0), (20, 0), (22, 1), (16, 9)]) with recipe := [tRecipe] }] } }) ∧
    Runs (.reduceScatter 4 {}) (tE2 (tRaw 2 2 [(13, 1), (14, 1), (24, 1), (32, 0x10040), (64, 0x10000), (72, 4), (80, 1), (88, 0x10000), (18, 0), (20, 2), (22, 1), (16, 9)])) ∧
    Runs (.allreduce 4 {}) (tE2 (tRaw 3 2 [(13, 1), (14, 1), (24, 1), (32, 0x10040), (64, 0x10000), (72, 4), (80, 1), (88, 0x10000), (18, 0), (20, 2), (22, 1), (16, 9)])) ∧
    Runs (.mergeApply 4 {}) (tE2 (tRaw 4 2 [(13, 1), (14, 1), (24, 1), (32, 0x10040), (64, 0x10000), (72, 4), (80, 1), (88, 0x10000), (18, 0), (20, 2), (22, 1), (16, 9)])) :=
  ⟨Completes.runs ((h 4 {} (tDesc (tRaw 1 2 [(13, 1), (14, 1), (24, 1), (32, 0x10040), (64, 0x10000), (72, 4), (80, 2), (88, 0x10000), (18, 0), (20, 0), (22, 1), (16, 9)])) tComp (tNums (tE (tRaw 1 2 [(13, 1), (14, 1), (24, 1), (32, 0x10040), (64, 0x10000), (72, 4), (80, 2), (88, 0x10000), (18, 0), (20, 0), (22, 1), (16, 9)]))) (by decide +kernel)).1 10485824 10485760 10485760 (by decide +kernel) (by decide +kernel) (by decide +kernel) (by decide +kernel) (by decide +kernel) (by decide +kernel) (by decide +kernel) ⟨⟨true, 0, (by decide +kernel), (by decide +kernel), (by decide +kernel), (by decide +kernel)⟩, (by decide +kernel), (by decide +kernel), (by decide +kernel)⟩ ⟨⟨true, 4, (by decide +kernel), (by decide +kernel), (by decide +kernel), (by decide +kernel)⟩, (by decide +kernel), (by decide +kernel), (by decide +kernel)⟩ ⟨⟨64, (by decide +kernel), (by decide +kernel), (by decide +kernel), (by decide +kernel)⟩, (by decide +kernel), (by decide +kernel)⟩),
    Completes.runs ((h 4 {} { tDesc (tRaw 5 2 [(13, 1), (14, 1), (24, 1), (32, 0x10040), (64, 0x10000), (72, 4), (80, 0), (88, 0x10000), (18, 0), (20, 0), (22, 1), (16, 9)]) with recipe := [tRecipe] } tComp (tNums { tE (tRaw 5 2 [(13, 1), (14, 1), (24, 1), (32, 0x10040), (64, 0x10000), (72, 4), (80, 0), (88, 0x10000), (18, 0), (20, 0), (22, 1), (16, 9)]) with slc := { descs := [{ tDesc (tRaw 5 2 [(13, 1), (14, 1), (24, 1), (32, 0x10040), (64, 0x10000), (72, 4), (80, 0), (88, 0x10000), (18, 0), (20, 0), (22, 1), (16, 9)]) with recipe := [tRecipe] }] } }) (by decide +kernel)).2.1 10485760 tRecipe (by decide +kernel) (by decide +kernel) (by decide +kernel) rfl (by decide +kernel) (by decide +kernel) (by decide +kernel) (by decide +kernel) (by decide +kernel) ⟨⟨true, 0, (by decide +kernel), (by decide +kernel), (by decide +kernel), (by decide +kernel)⟩, (by decide +kernel), (by decide +kernel), (by decide +kernel)⟩ ⟨⟨0, (by decide +kernel), (by decide +kernel), (by decide +kernel), (by decide +kernel)⟩, (by decide +kernel), (by decide +kernel)⟩),
    Completes.runs (((h 4 {} (tDesc2 (tRaw 2 2 [(13, 1), (14, 1), (24, 1), (32, 0x10040), (64, 0x10000), (72, 4), (80, 1), (88, 0x10000), (18, 0), (20, 2), (22, 1), (16, 9)])) tComp2 (tE2 (tRaw 2 2 [(13, 1), (14, 1), (24, 1), (32, 0x10040), (64, 0x10000), (72, 4), (80, 1), (88, 0x10000), (18, 0), (20, 2), (22, 1), (16, 9)])) (by decide +kernel)).2.2 1 5 0 4 (by decide +kernel) (by decide +kernel) (by decide +kernel) (by decide +kernel) (by decide +kernel) (by decide +kernel)).1 (by decide +kernel)),
    Completes.runs (((h 4 {} (tDesc2 (tRaw 3 2 [(13, 1), (14, 1), (24, 1), (32, 0x10040), (64, 0x10000), (72, 4), (80, 1), (88, 0x10000), (18, 0), (20, 2), (22, 1), (16, 9)])) tComp2 (tE2 (tRaw 3 2 [(13, 1), (14, 1), (24, 1), (32, 0x10040), (64, 0x10000), (72, 4), (80, 1), (88, 0x10000), (18, 0), (20, 2), (22, 1), (16, 9)])) (by decide +kernel)).2.2 1 5 0 4 (by decide +kernel) (by decide +kernel) (by decide +kernel) (by decide +kernel) (by decide +kernel) (by decide +kernel)).2.1 (by decide +kernel)),
    Completes.runs (((h 4 {} (tDesc2 (tRaw 4 2 [(13, 1), (14, 1), (24, 1), (32, 0x10040), (64, 0x10000), (72, 4), (80, 1), (88, 0x10000), (18, 0), (20, 2), (22, 1), (16, 9)])) tComp2 (tE2 (tRaw 4 2 [(13, 1), (14, 1), (24, 1), (32, 0x10040), (64, 0x10000), (72, 4), (80, 1), (88, 0x10000), (18, 0), (20, 2), (22, 1), (16, 9)])) (by decide +kernel)).2.2 1 5 0 4 (by decide +kernel) (by decide +kernel) (by decide +kernel) (by decide +kernel) (by decide +kernel) (by decide +kernel)).2.2 (by decide +kernel))⟩

/-- A participant packet of member 1 (node 5) for collective 9, with more of OPARG. -/
def tPart (op : Nat) : Hdr := tHdr 0x62 (op + 9 * 2 ^ 24 + 2 ^ 40)

/-- Descriptor 4, a collective that waits, and the participant's state for it. -/
def tColl (raw : BitVec 1024) (x : Coll) : State :=
  { tE2 raw with slc := { descs := [{ tDesc2 raw with phase := .waiting }], nextDesc := 5 }, engs := { colls := [(collKey 3 9, x)] } }

/-- Collective 9 of descriptor 4. -/
def tColl9 : Coll := { slot := 3, collId := 9, desc := some 4 }

theorem test_meets_PacketsOfACollective (h : Obligations.PacketsOfACollective) :
    Runs (.collJoin ⟨tPart (2 ^ 7), []⟩) ({ tRoute with comps := [tComp2] }) ∧
    Runs (.collJoin ⟨tPart (2 ^ 7 + redSig (tRaw 2 2 [(13, 1), (14, 1), (24, 1), (32, 0x210000), (64, 0x10000), (72, 4), (80, 1), (88, 0x10080), (18, 0), (20, 2), (22, 1), (16, 9)]) * 2 ^ 52), []⟩) (tColl (tRaw 2 2 [(13, 1), (14, 1), (24, 1), (32, 0x210000), (64, 0x10000), (72, 4), (80, 1), (88, 0x10080), (18, 0), (20, 2), (22, 1), (16, 9)]) { tColl9 with sig := redSig (tRaw 2 2 [(13, 1), (14, 1), (24, 1), (32, 0x210000), (64, 0x10000), (72, 4), (80, 1), (88, 0x10080), (18, 0), (20, 2), (22, 1), (16, 9)]) }) ∧
    Runs (.collArm ⟨tPart (2 ^ 7 + 1), []⟩) (tNums (tColl (tRaw 2 2 [(13, 1), (14, 1), (24, 1), (32, 0x210000), (64, 0x10000), (72, 4), (80, 1), (88, 0x10080), (18, 0), (20, 2), (22, 1), (16, 9)]) { tColl9 with formed := true })) ∧
    Runs (.rearm ⟨tPart (2 ^ 7 + 2), []⟩) (tNums (tColl (tRaw 2 2 [(13, 1), (14, 1), (24, 1), (32, 0x210000), (64, 0x10000), (72, 4), (80, 1), (88, 0x10080), (18, 0), (20, 2), (22, 1), (16, 9)]) { tColl9 with formed := true })) ∧
    Runs (.partialAcc ⟨{ tPart 0 with pktLen := 3 }, [310183920060809776216408067]⟩) (tColl (tRaw 2 2 [(13, 1), (14, 1), (24, 1), (32, 0x10040), (64, 0x10000), (72, 4), (80, 1), (88, 0x10080), (18, 0), (20, 2), (22, 1), (16, 9)]) { tColl9 with formed := true, next := 1, parts := [{ window := 0, idx := [0], pan := 0, accs := [(accTerm (readElem 1 0x3FC00000).1 false {})] }] }) ∧
    Runs (.collDone ⟨tPart (2 ^ 7 + 3), []⟩) (tColl (tRaw 3 2 [(13, 1), (14, 1), (24, 1), (32, 0x210000), (64, 0x10000), (72, 4), (80, 1), (88, 0x10080), (18, 0), (20, 2), (22, 1), (16, 9)]) { tColl9 with formed := true, sentN := 1 }) ∧
    Runs (.collAbort ⟨tPart (2 ^ 7 + 4), []⟩) (tColl (tRaw 3 2 [(13, 1), (14, 1), (24, 1), (32, 0x210000), (64, 0x10000), (72, 4), (80, 1), (88, 0x10080), (18, 0), (20, 2), (22, 1), (16, 9)]) tColl9) ∧
    Runs (.collectiveTimeout 4) (tColl (tRaw 3 2 [(13, 1), (14, 1), (24, 1), (32, 0x210000), (64, 0x10000), (72, 4), (80, 1), (88, 0x10080), (18, 0), (20, 2), (22, 1), (16, 9)]) tColl9) :=
  ⟨Completes.runs ((h ⟨tPart (2 ^ 7), []⟩ tComp2 ({ tRoute with comps := [tComp2] }) (by decide +kernel) (by decide +kernel) (by decide +kernel) (by decide +kernel)).1 (by decide +kernel) (by decide +kernel) (by decide +kernel) (by decide +kernel)),
    Completes.runs (((h ⟨tPart (2 ^ 7 + redSig (tRaw 2 2 [(13, 1), (14, 1), (24, 1), (32, 0x210000), (64, 0x10000), (72, 4), (80, 1), (88, 0x10080), (18, 0), (20, 2), (22, 1), (16, 9)]) * 2 ^ 52), []⟩ tComp2 (tColl (tRaw 2 2 [(13, 1), (14, 1), (24, 1), (32, 0x210000), (64, 0x10000), (72, 4), (80, 1), (88, 0x10080), (18, 0), (20, 2), (22, 1), (16, 9)]) { tColl9 with sig := redSig (tRaw 2 2 [(13, 1), (14, 1), (24, 1), (32, 0x210000), (64, 0x10000), (72, 4), (80, 1), (88, 0x10080), (18, 0), (20, 2), (22, 1), (16, 9)]) }) (by decide +kernel) (by decide +kernel) (by decide +kernel) (by decide +kernel)).2 { tColl9 with sig := redSig (tRaw 2 2 [(13, 1), (14, 1), (24, 1), (32, 0x210000), (64, 0x10000), (72, 4), (80, 1), (88, 0x10080), (18, 0), (20, 2), (22, 1), (16, 9)]) } 4 5 { tDesc2 (tRaw 2 2 [(13, 1), (14, 1), (24, 1), (32, 0x210000), (64, 0x10000), (72, 4), (80, 1), (88, 0x10080), (18, 0), (20, 2), (22, 1), (16, 9)]) with phase := .waiting } (by decide +kernel) (by decide +kernel) (by decide +kernel) (by decide +kernel) (by decide +kernel) (by decide +kernel) (by decide +kernel)).1 (by decide +kernel) (by decide +kernel) (by decide +kernel) (by decide +kernel) (by decide +kernel) (by decide +kernel) (by decide +kernel) (by decide +kernel) (by decide +kernel) (by decide +kernel) (by decide +kernel) (by decide +kernel) (by decide +kernel) (by decide +kernel) (by decide +kernel)),
    Completes.runs ((((h ⟨tPart (2 ^ 7 + 1), []⟩ tComp2 (tNums (tColl (tRaw 2 2 [(13, 1), (14, 1), (24, 1), (32, 0x210000), (64, 0x10000), (72, 4), (80, 1), (88, 0x10080), (18, 0), (20, 2), (22, 1), (16, 9)]) { tColl9 with formed := true })) (by decide +kernel) (by decide +kernel) (by decide +kernel) (by decide +kernel)).2 { tColl9 with formed := true } 4 5 { tDesc2 (tRaw 2 2 [(13, 1), (14, 1), (24, 1), (32, 0x210000), (64, 0x10000), (72, 4), (80, 1), (88, 0x10080), (18, 0), (20, 2), (22, 1), (16, 9)]) with phase := .waiting } (by decide +kernel) (by decide +kernel) (by decide +kernel) (by decide +kernel) (by decide +kernel) (by decide +kernel) (by decide +kernel)).2.1 10485760 4 310183920060809776216408067 (by decide +kernel) (by decide +kernel) (by decide +kernel) (by decide +kernel) (by decide +kernel) (by decide +kernel) (by decide +kernel) (by decide +kernel) (by decide +kernel) (by decide +kernel) (by decide +kernel) ⟨⟨true, 0, (by decide +kernel), (by decide +kernel), (by decide +kernel), (by decide +kernel)⟩, (by decide +kernel), (by decide +kernel), (by decide +kernel)⟩ (by decide +kernel) (by decide +kernel) (by decide +kernel) (by decide +kernel) (by decide +kernel) (by decide +kernel) (by decide +kernel) (by decide +kernel) (by decide +kernel)).1 (by decide +kernel)),
    Completes.runs ((((h ⟨tPart (2 ^ 7 + 2), []⟩ tComp2 (tNums (tColl (tRaw 2 2 [(13, 1), (14, 1), (24, 1), (32, 0x210000), (64, 0x10000), (72, 4), (80, 1), (88, 0x10080), (18, 0), (20, 2), (22, 1), (16, 9)]) { tColl9 with formed := true })) (by decide +kernel) (by decide +kernel) (by decide +kernel) (by decide +kernel)).2 { tColl9 with formed := true } 4 5 { tDesc2 (tRaw 2 2 [(13, 1), (14, 1), (24, 1), (32, 0x210000), (64, 0x10000), (72, 4), (80, 1), (88, 0x10080), (18, 0), (20, 2), (22, 1), (16, 9)]) with phase := .waiting } (by decide +kernel) (by decide +kernel) (by decide +kernel) (by decide +kernel) (by decide +kernel) (by decide +kernel) (by decide +kernel)).2.1 10485760 4 310183920060809776216408067 (by decide +kernel) (by decide +kernel) (by decide +kernel) (by decide +kernel) (by decide +kernel) (by decide +kernel) (by decide +kernel) (by decide +kernel) (by decide +kernel) (by decide +kernel) (by decide +kernel) ⟨⟨true, 0, (by decide +kernel), (by decide +kernel), (by decide +kernel), (by decide +kernel)⟩, (by decide +kernel), (by decide +kernel), (by decide +kernel)⟩ (by decide +kernel) (by decide +kernel) (by decide +kernel) (by decide +kernel) (by decide +kernel) (by decide +kernel) (by decide +kernel) (by decide +kernel) (by decide +kernel)).2 (by decide +kernel)),
    Completes.runs (((h ⟨{ tPart 0 with pktLen := 3 }, [310183920060809776216408067]⟩ tComp2 (tColl (tRaw 2 2 [(13, 1), (14, 1), (24, 1), (32, 0x10040), (64, 0x10000), (72, 4), (80, 1), (88, 0x10080), (18, 0), (20, 2), (22, 1), (16, 9)]) { tColl9 with formed := true, next := 1, parts := [{ window := 0, idx := [0], pan := 0, accs := [(accTerm (readElem 1 0x3FC00000).1 false {})] }] }) (by decide +kernel) (by decide +kernel) (by decide +kernel) (by decide +kernel)).2 { tColl9 with formed := true, next := 1, parts := [{ window := 0, idx := [0], pan := 0, accs := [(accTerm (readElem 1 0x3FC00000).1 false {})] }] } 4 5 { tDesc2 (tRaw 2 2 [(13, 1), (14, 1), (24, 1), (32, 0x10040), (64, 0x10000), (72, 4), (80, 1), (88, 0x10080), (18, 0), (20, 2), (22, 1), (16, 9)]) with phase := .waiting } (by decide +kernel) (by decide +kernel) (by decide +kernel) (by decide +kernel) (by decide +kernel) (by decide +kernel) (by decide +kernel)).2.2.1 { window := 0, idx := [0], pan := 0, accs := [(accTerm (readElem 1 0x3FC00000).1 false {})] } (accTerm (readElem 1 0x3FC00000).1 false {}) (accTerm (readElem 1 0x3FC00000).1 false {}) 310183920060809776216408067 10485824 (by decide +kernel) (by decide +kernel) (by decide +kernel) (by decide +kernel) (by decide +kernel) (by decide +kernel) (by decide +kernel) (by decide +kernel) (by decide +kernel) (by decide +kernel) (by decide +kernel) (by decide +kernel) (by decide +kernel) (by decide +kernel) (by decide +kernel) (by decide +kernel) (by decide +kernel) (by decide +kernel) (by decide +kernel) (by decide +kernel) (by decide +kernel) (by decide +kernel) ⟨⟨64, (by decide +kernel), (by decide +kernel), (by decide +kernel), (by decide +kernel)⟩, (by decide +kernel), (by decide +kernel)⟩),
    Completes.runs (((h ⟨tPart (2 ^ 7 + 3), []⟩ tComp2 (tColl (tRaw 3 2 [(13, 1), (14, 1), (24, 1), (32, 0x210000), (64, 0x10000), (72, 4), (80, 1), (88, 0x10080), (18, 0), (20, 2), (22, 1), (16, 9)]) { tColl9 with formed := true, sentN := 1 }) (by decide +kernel) (by decide +kernel) (by decide +kernel) (by decide +kernel)).2 { tColl9 with formed := true, sentN := 1 } 4 5 { tDesc2 (tRaw 3 2 [(13, 1), (14, 1), (24, 1), (32, 0x210000), (64, 0x10000), (72, 4), (80, 1), (88, 0x10080), (18, 0), (20, 2), (22, 1), (16, 9)]) with phase := .waiting } (by decide +kernel) (by decide +kernel) (by decide +kernel) (by decide +kernel) (by decide +kernel) (by decide +kernel) (by decide +kernel)).2.2.2.1 0x200000 true 1 10485888 (by decide +kernel) (by decide +kernel) (by decide +kernel) (by decide +kernel) (by decide +kernel) (by decide +kernel) (by decide +kernel) (by decide +kernel) (by decide +kernel) (by decide +kernel) (by decide +kernel) (by decide +kernel) (by decide +kernel) ⟨⟨128, (by decide +kernel), (by decide +kernel), (by decide +kernel), (by decide +kernel)⟩, (by decide +kernel), (by decide +kernel)⟩ (by decide +kernel) (by decide +kernel) (by decide +kernel) (by decide +kernel) (by decide +kernel) (by decide +kernel) (by decide +kernel) (by decide +kernel)),
    Completes.runs (((h ⟨tPart (2 ^ 7 + 4), []⟩ tComp2 (tColl (tRaw 3 2 [(13, 1), (14, 1), (24, 1), (32, 0x210000), (64, 0x10000), (72, 4), (80, 1), (88, 0x10080), (18, 0), (20, 2), (22, 1), (16, 9)]) tColl9) (by decide +kernel) (by decide +kernel) (by decide +kernel) (by decide +kernel)).2 tColl9 4 5 { tDesc2 (tRaw 3 2 [(13, 1), (14, 1), (24, 1), (32, 0x210000), (64, 0x10000), (72, 4), (80, 1), (88, 0x10080), (18, 0), (20, 2), (22, 1), (16, 9)]) with phase := .waiting } (by decide +kernel) (by decide +kernel) (by decide +kernel) (by decide +kernel) (by decide +kernel) (by decide +kernel) (by decide +kernel)).2.2.2.2.1 (by decide +kernel) (by decide +kernel)),
    Completes.runs (((h ⟨tPart (2 ^ 7 + 3), []⟩ tComp2 (tColl (tRaw 3 2 [(13, 1), (14, 1), (24, 1), (32, 0x210000), (64, 0x10000), (72, 4), (80, 1), (88, 0x10080), (18, 0), (20, 2), (22, 1), (16, 9)]) tColl9) (by decide +kernel) (by decide +kernel) (by decide +kernel) (by decide +kernel)).2 tColl9 4 5 { tDesc2 (tRaw 3 2 [(13, 1), (14, 1), (24, 1), (32, 0x210000), (64, 0x10000), (72, 4), (80, 1), (88, 0x10080), (18, 0), (20, 2), (22, 1), (16, 9)]) with phase := .waiting } (by decide +kernel) (by decide +kernel) (by decide +kernel) (by decide +kernel) (by decide +kernel) (by decide +kernel) (by decide +kernel)).2.2.2.2.2 (by decide +kernel))⟩

/-- A gather descriptor: one index at 0x10000, a table of four rows of one element at 0x10040, the result at 0x10080, offsets at 0x100C0. -/
def tGa (opc quiet : Nat) : BitVec 1024 :=
  tRaw opc 3 [(12, quiet * 64), (13, 1), (14, 1), (16, 1), (20, 4), (24, 1), (32, 0x10040), (52, 4), (72, 0x10000), (88, 0x10080), (100, 1), (104, 0x100C0)]

theorem test_meets_GatherEngine (h : Obligations.GatherEngine) :
    Runs (.gather 4 {}) (withBytes [(0xA00000, 1), (0xA00046, 0xC0), (0xA00047, 0x3F), (0xA00082, 0x80), (0xA00083, 0x3F)] (tE (tGa 1 0))) ∧
    Runs (.gather 4 {}) (withBytes [(0xA00000, 255), (0xA00001, 255), (0xA00002, 255), (0xA00003, 255)] (tE (tGa 1 0))) ∧
    Runs (.pool 4 {}) (withBytes [(0xA00000, 1), (0xA00047, 0x40), (0xA000C4, 1)] (tE (tGa 2 0))) ∧
    Runs (.pool 4 {}) (withBytes [] (tE (tGa 2 0))) ∧
    Runs (.scatterMerge 4 {}) (withBytes [(0xA00000, 1), (0xA00046, 0xC0), (0xA00047, 0x3F), (0xA00082, 0x80), (0xA00083, 0x3F)] (tE (tGa 3 0))) :=
  ⟨Completes.runs (((h 4 {} (tDesc (tGa 1 0)) tComp 10485760 10485888 10485824 (withBytes [(0xA00000, 1), (0xA00046, 0xC0), (0xA00047, 0x3F), (0xA00082, 0x80), (0xA00083, 0x3F)] (tE (tGa 1 0))) (by decide +kernel) (by decide +kernel) (by decide +kernel) (by decide +kernel) (by decide +kernel) (by decide +kernel) (by decide +kernel) ⟨⟨true, 0, (by decide +kernel), (by decide +kernel), (by decide +kernel), (by decide +kernel)⟩, (by decide +kernel), (by decide +kernel), (by decide +kernel)⟩).1 (by decide +kernel) ⟨⟨128, (by decide +kernel), (by decide +kernel), (by decide +kernel), (by decide +kernel)⟩, (by decide +kernel), (by decide +kernel)⟩).1 (by decide +kernel) (by decide +kernel) ⟨⟨true, 68, (by decide +kernel), (by decide +kernel), (by decide +kernel), (by decide +kernel)⟩, (by decide +kernel), (by decide +kernel), (by decide +kernel)⟩),
    Completes.runs (((h 4 {} (tDesc (tGa 1 0)) tComp 10485760 10485888 10485824 (withBytes [(0xA00000, 255), (0xA00001, 255), (0xA00002, 255), (0xA00003, 255)] (tE (tGa 1 0))) (by decide +kernel) (by decide +kernel) (by decide +kernel) (by decide +kernel) (by decide +kernel) (by decide +kernel) (by decide +kernel) ⟨⟨true, 0, (by decide +kernel), (by decide +kernel), (by decide +kernel), (by decide +kernel)⟩, (by decide +kernel), (by decide +kernel), (by decide +kernel)⟩).1 (by decide +kernel) ⟨⟨128, (by decide +kernel), (by decide +kernel), (by decide +kernel), (by decide +kernel)⟩, (by decide +kernel), (by decide +kernel)⟩).2 (by decide +kernel) (by decide +kernel)),
    Completes.runs (((h 4 {} (tDesc (tGa 2 0)) tComp 10485760 10485888 10485824 (withBytes [(0xA00000, 1), (0xA00047, 0x40), (0xA000C4, 1)] (tE (tGa 2 0))) (by decide +kernel) (by decide +kernel) (by decide +kernel) (by decide +kernel) (by decide +kernel) (by decide +kernel) (by decide +kernel) ⟨⟨true, 0, (by decide +kernel), (by decide +kernel), (by decide +kernel), (by decide +kernel)⟩, (by decide +kernel), (by decide +kernel), (by decide +kernel)⟩).2.1 10485952 10485952 (by decide +kernel) ⟨⟨128, (by decide +kernel), (by decide +kernel), (by decide +kernel), (by decide +kernel)⟩, (by decide +kernel), (by decide +kernel)⟩ (by decide +kernel) (by decide +kernel) ⟨⟨true, 192, (by decide +kernel), (by decide +kernel), (by decide +kernel), (by decide +kernel)⟩, (by decide +kernel), (by decide +kernel), (by decide +kernel)⟩ ⟨⟨true, 196, (by decide +kernel), (by decide +kernel), (by decide +kernel), (by decide +kernel)⟩, (by decide +kernel), (by decide +kernel), (by decide +kernel)⟩).1 (by decide +kernel) (by decide +kernel) (by decide +kernel) (by decide +kernel) ⟨⟨true, 68, (by decide +kernel), (by decide +kernel), (by decide +kernel), (by decide +kernel)⟩, (by decide +kernel), (by decide +kernel), (by decide +kernel)⟩),
    Completes.runs (((h 4 {} (tDesc (tGa 2 0)) tComp 10485760 10485888 10485824 (withBytes [] (tE (tGa 2 0))) (by decide +kernel) (by decide +kernel) (by decide +kernel) (by decide +kernel) (by decide +kernel) (by decide +kernel) (by decide +kernel) ⟨⟨true, 0, (by decide +kernel), (by decide +kernel), (by decide +kernel), (by decide +kernel)⟩, (by decide +kernel), (by decide +kernel), (by decide +kernel)⟩).2.1 10485952 10485952 (by decide +kernel) ⟨⟨128, (by decide +kernel), (by decide +kernel), (by decide +kernel), (by decide +kernel)⟩, (by decide +kernel), (by decide +kernel)⟩ (by decide +kernel) (by decide +kernel) ⟨⟨true, 192, (by decide +kernel), (by decide +kernel), (by decide +kernel), (by decide +kernel)⟩, (by decide +kernel), (by decide +kernel), (by decide +kernel)⟩ ⟨⟨true, 196, (by decide +kernel), (by decide +kernel), (by decide +kernel), (by decide +kernel)⟩, (by decide +kernel), (by decide +kernel), (by decide +kernel)⟩).2 (by decide +kernel) (by decide +kernel)),
    Completes.runs ((h 4 {} (tDesc (tGa 3 0)) tComp 10485760 10485888 10485824 (withBytes [(0xA00000, 1), (0xA00046, 0xC0), (0xA00047, 0x3F), (0xA00082, 0x80), (0xA00083, 0x3F)] (tE (tGa 3 0))) (by decide +kernel) (by decide +kernel) (by decide +kernel) (by decide +kernel) (by decide +kernel) (by decide +kernel) (by decide +kernel) ⟨⟨true, 0, (by decide +kernel), (by decide +kernel), (by decide +kernel), (by decide +kernel)⟩, (by decide +kernel), (by decide +kernel), (by decide +kernel)⟩).2.2 (by decide +kernel) (by decide +kernel) (by decide +kernel) (by decide +kernel) ⟨⟨true, 128, (by decide +kernel), (by decide +kernel), (by decide +kernel), (by decide +kernel)⟩, (by decide +kernel), (by decide +kernel), (by decide +kernel)⟩ ⟨⟨true, 68, (by decide +kernel), (by decide +kernel), (by decide +kernel), (by decide +kernel)⟩, (by decide +kernel), (by decide +kernel), (by decide +kernel)⟩ ⟨⟨68, (by decide +kernel), (by decide +kernel), (by decide +kernel), (by decide +kernel)⟩, (by decide +kernel), (by decide +kernel)⟩)⟩

/-- A search descriptor: queries or items at 0x10000, the bin table at 0x10080, vectors at 0x10400, results at 0x10500, the arena at 0x10800. -/
def tRa (opc : Nat) : BitVec 1024 :=
  tRaw opc 4 [(12, 16), (15, 1), (16, 1), (18, 1), (20, 1), (24, 1), (28, 1), (32, 0x10000), (40, 0x10500), (48, 0x10080), (56, 0x10800), (64, 1024),
    (72, 0x10400), (80, 4), (112, 4)]

/-- One bin of four places, one of them used: sketches at the arena's start, IDs at 256, tombstones at 512; the ID is 1, its vector 2.0, the query 1.5. -/
def tBins (opc : Nat) (l : List (Nat × Byte)) : State :=
  withBytes ([(0xA00089, 1), (0xA00091, 2), (0xA00098, 4), (0xA0009C, 1), (0xA00042, 0xC0), (0xA00043, 0x3F), (0xA00900, 1), (0xA00407, 0x40)] ++ l) (tE (tRa opc))

theorem test_meets_RakeEngine (h : Obligations.RakeEngine) :
    Runs (.search 4 {}) (tBins 1 [(0xA00000, 7), (0xA00800, 1)]) ∧
    Runs (.deadlineExpiry 4) ({ tE 0 with slc := { descs := [{ tDesc (tRaw 1 4 [(12, 1)]) with started := true }] } }) ∧
    Runs (.rakeAppend 4 {}) (tBins 2 [(0xA00000, 7), (0xA00100, 5)]) ∧
    Runs (.rakeDelete 4 {}) (tBins 3 [(0xA00A00, 6)]) ∧
    Runs (.rakeDelete 4 {}) (tBins 3 [(0xA00000, 5)]) :=
  ⟨Completes.runs (h.1 4 {} (tDesc (tRa 1)) tComp 10485760 10485824 10485888 10487808 10488064 10488320 10486784 10487040 (tBins 1 [(0xA00000, 7), (0xA00800, 1)]) (by decide +kernel) (by decide +kernel) (by decide +kernel) (by decide +kernel) (by decide +kernel) (by decide +kernel) (by decide +kernel) (by decide +kernel) (by decide +kernel) (by decide +kernel) (by decide +kernel) (by decide +kernel) (by decide +kernel) ⟨⟨true, 0, (by decide +kernel), (by decide +kernel), (by decide +kernel), (by decide +kernel)⟩, (by decide +kernel), (by decide +kernel), (by decide +kernel)⟩ ⟨⟨true, 64, (by decide +kernel), (by decide +kernel), (by decide +kernel), (by decide +kernel)⟩, (by decide +kernel), (by decide +kernel), (by decide +kernel)⟩ ⟨⟨true, 128, (by decide +kernel), (by decide +kernel), (by decide +kernel), (by decide +kernel)⟩, (by decide +kernel), (by decide +kernel), (by decide +kernel)⟩ (by decide +kernel) (by decide +kernel) ⟨⟨true, 2048, (by decide +kernel), (by decide +kernel), (by decide +kernel), (by decide +kernel)⟩, (by decide +kernel), (by decide +kernel), (by decide +kernel)⟩ ⟨⟨true, 2304, (by decide +kernel), (by decide +kernel), (by decide +kernel), (by decide +kernel)⟩, (by decide +kernel), (by decide +kernel), (by decide +kernel)⟩ ⟨⟨true, 2560, (by decide +kernel), (by decide +kernel), (by decide +kernel), (by decide +kernel)⟩, (by decide +kernel), (by decide +kernel), (by decide +kernel)⟩ (by decide +kernel) (by decide +kernel) ⟨⟨true, 1028, (by decide +kernel), (by decide +kernel), (by decide +kernel), (by decide +kernel)⟩, (by decide +kernel), (by decide +kernel), (by decide +kernel)⟩ ⟨⟨1280, (by decide +kernel), (by decide +kernel), (by decide +kernel), (by decide +kernel)⟩, (by decide +kernel), (by decide +kernel)⟩),
    Completes.runs (h.2.1 4 ({ tDesc (tRaw 1 4 [(12, 1)]) with started := true }) ({ tE 0 with slc := { descs := [{ tDesc (tRaw 1 4 [(12, 1)]) with started := true }] } }) (by decide +kernel)),
    Completes.runs ((h.2.2 4 {} (tDesc (tRa 2)) tComp 10485888 (tBins 2 [(0xA00000, 7), (0xA00100, 5)]) (by decide +kernel) ⟨⟨true, 128, (by decide +kernel), (by decide +kernel), (by decide +kernel), (by decide +kernel)⟩, (by decide +kernel), (by decide +kernel), (by decide +kernel)⟩ (by decide +kernel) (by decide +kernel)).1 10485760 10486016 10487808 10488064 10488320 (by decide +kernel) (by decide +kernel) (by decide +kernel) ⟨⟨true, 0, (by decide +kernel), (by decide +kernel), (by decide +kernel), (by decide +kernel)⟩, (by decide +kernel), (by decide +kernel), (by decide +kernel)⟩ ⟨⟨true, 256, (by decide +kernel), (by decide +kernel), (by decide +kernel), (by decide +kernel)⟩, (by decide +kernel), (by decide +kernel), (by decide +kernel)⟩ ⟨⟨2080, (by decide +kernel), (by decide +kernel), (by decide +kernel), (by decide +kernel)⟩, (by decide +kernel), (by decide +kernel)⟩ ⟨⟨2312, (by decide +kernel), (by decide +kernel), (by decide +kernel), (by decide +kernel)⟩, (by decide +kernel), (by decide +kernel)⟩ ⟨⟨true, 2560, (by decide +kernel), (by decide +kernel), (by decide +kernel), (by decide +kernel)⟩, (by decide +kernel), (by decide +kernel), (by decide +kernel)⟩ ⟨⟨2560, (by decide +kernel), (by decide +kernel), (by decide +kernel), (by decide +kernel)⟩, (by decide +kernel), (by decide +kernel)⟩ ⟨⟨156, (by decide +kernel), (by decide +kernel), (by decide +kernel), (by decide +kernel)⟩, (by decide +kernel), (by decide +kernel)⟩ (by decide +kernel)),
    Completes.runs (((h.2.2 4 {} (tDesc (tRa 3)) tComp 10485888 (tBins 3 [(0xA00A00, 6)]) (by decide +kernel) ⟨⟨true, 128, (by decide +kernel), (by decide +kernel), (by decide +kernel), (by decide +kernel)⟩, (by decide +kernel), (by decide +kernel), (by decide +kernel)⟩ (by decide +kernel) (by decide +kernel)).2 10485760 (by decide +kernel) ⟨⟨true, 0, (by decide +kernel), (by decide +kernel), (by decide +kernel), (by decide +kernel)⟩, (by decide +kernel), (by decide +kernel), (by decide +kernel)⟩).1 10488320 (by decide +kernel) ⟨⟨true, 2560, (by decide +kernel), (by decide +kernel), (by decide +kernel), (by decide +kernel)⟩, (by decide +kernel), (by decide +kernel), (by decide +kernel)⟩ ⟨⟨2560, (by decide +kernel), (by decide +kernel), (by decide +kernel), (by decide +kernel)⟩, (by decide +kernel), (by decide +kernel)⟩),
    Completes.runs (((h.2.2 4 {} (tDesc (tRa 3)) tComp 10485888 (tBins 3 [(0xA00000, 5)]) (by decide +kernel) ⟨⟨true, 128, (by decide +kernel), (by decide +kernel), (by decide +kernel), (by decide +kernel)⟩, (by decide +kernel), (by decide +kernel), (by decide +kernel)⟩ (by decide +kernel) (by decide +kernel)).2 10485760 (by decide +kernel) ⟨⟨true, 0, (by decide +kernel), (by decide +kernel), (by decide +kernel), (by decide +kernel)⟩, (by decide +kernel), (by decide +kernel), (by decide +kernel)⟩).2 (by decide +kernel))⟩

/-- An attention descriptor of one sequence: its entry at 0x10000, blocks of 16 tokens at 0x10800, their table at 0x10040, the query at 0x10080, the output at 0x100C0. -/
def tAt : BitVec 1024 :=
  tRaw 1 5 [(13, 1), (14, 1), (16, 1), (18, 1), (20, 1), (22, 16), (24, 1), (28, 2), (32, 0x10000), (52, 0x3F800000), (56, 0x10800), (64, 0x10040), (72, 1),
    (80, 0x10080), (88, 0x100C0)]

/-- It in flight; values lie 16 MiB above keys, in the composition's second page. -/
def tAtDesc : Desc := { tDesc tAt with runs := (tDesc tAt).runs ++ [⟨0, 0x1010000, 4096, .pool 0x1000, true⟩] }

theorem test_meets_AttendEngine (h : Obligations.AttendEngine) :
    Runs (.attend 4 {}) (withBytes [] { tE tAt with slc := { descs := [tAtDesc] } }) ∧
    Runs (.attend 4 {}) (withBytes [(0xA00008, 1), (0xA00803, 0x40), (0xA01802, 0x80), (0xA01803, 0x3F), (0xA00083, 0x40)] { tE tAt with slc := { descs := [tAtDesc] } }) ∧
    Runs (.attend 4 {}) (withBytes [(0xA00008, 1), (0xA00803, 0x40), (0xA01802, 0x80), (0xA01803, 0x3F), (0xA00082, 0x80), (0xA00083, 0x7F)] { tE tAt with slc := { descs := [tAtDesc] } }) :=
  ⟨Completes.runs ((h 4 {} tAtDesc tComp 10485760 10485952 (withBytes [] { tE tAt with slc := { descs := [tAtDesc] } }) (by decide +kernel) (by decide +kernel) (by decide +kernel) (by decide +kernel) (by decide +kernel) (by decide +kernel) (by decide +kernel) (by decide +kernel) (by decide +kernel) (by decide +kernel) (by decide +kernel) (by decide +kernel) ⟨⟨true, 0, (by decide +kernel), (by decide +kernel), (by decide +kernel), (by decide +kernel)⟩, (by decide +kernel), (by decide +kernel), (by decide +kernel)⟩ (by decide +kernel) (by decide +kernel) ⟨⟨192, (by decide +kernel), (by decide +kernel), (by decide +kernel), (by decide +kernel)⟩, (by decide +kernel), (by decide +kernel)⟩).1 (by decide +kernel)),
    Completes.runs ((h 4 {} tAtDesc tComp 10485760 10485952 (withBytes [(0xA00008, 1), (0xA00803, 0x40), (0xA01802, 0x80), (0xA01803, 0x3F), (0xA00083, 0x40)] { tE tAt with slc := { descs := [tAtDesc] } }) (by decide +kernel) (by decide +kernel) (by decide +kernel) (by decide +kernel) (by decide +kernel) (by decide +kernel) (by decide +kernel) (by decide +kernel) (by decide +kernel) (by decide +kernel) (by decide +kernel) (by decide +kernel) ⟨⟨true, 0, (by decide +kernel), (by decide +kernel), (by decide +kernel), (by decide +kernel)⟩, (by decide +kernel), (by decide +kernel), (by decide +kernel)⟩ (by decide +kernel) (by decide +kernel) ⟨⟨192, (by decide +kernel), (by decide +kernel), (by decide +kernel), (by decide +kernel)⟩, (by decide +kernel), (by decide +kernel)⟩).2 10485824 10487808 10491904 10485888 (by decide +kernel) (by decide +kernel) ⟨⟨true, 64, (by decide +kernel), (by decide +kernel), (by decide +kernel), (by decide +kernel)⟩, (by decide +kernel), (by decide +kernel), (by decide +kernel)⟩ (by decide +kernel) (by decide +kernel) ⟨⟨true, 2048, (by decide +kernel), (by decide +kernel), (by decide +kernel), (by decide +kernel)⟩, (by decide +kernel), (by decide +kernel), (by decide +kernel)⟩ ⟨⟨true, 6144, (by decide +kernel), (by decide +kernel), (by decide +kernel), (by decide +kernel)⟩, (by decide +kernel), (by decide +kernel), (by decide +kernel)⟩ ⟨⟨true, 128, (by decide +kernel), (by decide +kernel), (by decide +kernel), (by decide +kernel)⟩, (by decide +kernel), (by decide +kernel), (by decide +kernel)⟩),
    Completes.runs ((h 4 {} tAtDesc tComp 10485760 10485952 (withBytes [(0xA00008, 1), (0xA00803, 0x40), (0xA01802, 0x80), (0xA01803, 0x3F), (0xA00082, 0x80), (0xA00083, 0x7F)] { tE tAt with slc := { descs := [tAtDesc] } }) (by decide +kernel) (by decide +kernel) (by decide +kernel) (by decide +kernel) (by decide +kernel) (by decide +kernel) (by decide +kernel) (by decide +kernel) (by decide +kernel) (by decide +kernel) (by decide +kernel) (by decide +kernel) ⟨⟨true, 0, (by decide +kernel), (by decide +kernel), (by decide +kernel), (by decide +kernel)⟩, (by decide +kernel), (by decide +kernel), (by decide +kernel)⟩ (by decide +kernel) (by decide +kernel) ⟨⟨192, (by decide +kernel), (by decide +kernel), (by decide +kernel), (by decide +kernel)⟩, (by decide +kernel), (by decide +kernel)⟩).2 10485824 10487808 10491904 10485888 (by decide +kernel) (by decide +kernel) ⟨⟨true, 64, (by decide +kernel), (by decide +kernel), (by decide +kernel), (by decide +kernel)⟩, (by decide +kernel), (by decide +kernel), (by decide +kernel)⟩ (by decide +kernel) (by decide +kernel) ⟨⟨true, 2048, (by decide +kernel), (by decide +kernel), (by decide +kernel), (by decide +kernel)⟩, (by decide +kernel), (by decide +kernel), (by decide +kernel)⟩ ⟨⟨true, 6144, (by decide +kernel), (by decide +kernel), (by decide +kernel), (by decide +kernel)⟩, (by decide +kernel), (by decide +kernel), (by decide +kernel)⟩ ⟨⟨true, 128, (by decide +kernel), (by decide +kernel), (by decide +kernel), (by decide +kernel)⟩, (by decide +kernel), (by decide +kernel), (by decide +kernel)⟩)⟩

/-- A move descriptor: source 0x10000, destination 0x10040, and more fields. -/
def tMv (opc len : Nat) (l : List (Nat × Nat)) : BitVec 1024 := tRaw opc 0 ([(16, 0x10000), (24, 0x10040), (32, len)] ++ l)

/-- A check descriptor: sources 0x10000 and 0x10040, the result at 0x10080. -/
def tCk (opc len : Nat) (l : List (Nat × Nat)) : BitVec 1024 := tRaw opc 1 ([(16, 0x10000), (24, 0x10040), (32, len), (40, 0x10080)] ++ l)

/-- The state with the page of 0x10000 in the TLB. -/
def tTlb (s : State) : State := { s with xl := { tlb := [⟨0, 0x10000, 4096, .pool 0, true⟩] } }

theorem test_meets_MoveEngine (h : Obligations.MoveEngine) :
    Runs (.fill 4 {}) (tE (tMv 1 9 [(40, 0x1122334455667788)])) ∧
    Runs (.copy 4 {}) (tNums (tE (tMv 2 9 []))) ∧
    Runs (.heatSnapshot 4 {}) (tE (tMv 6 2097152 [])) ∧
    Runs (.advise 4 {}) (tTlb (tNums (tE (tMv 5 4096 [(12, 2)])))) ∧
    Runs (.advise 4 {}) (tTlb (tNums (tE (tMv 5 4096 [(12, 4)])))) :=
  ⟨Completes.runs ((h 4 {} (tDesc (tMv 1 9 [(40, 0x1122334455667788)])) tComp (tE (tMv 1 9 [(40, 0x1122334455667788)])) (by decide +kernel)).1 10485824 (by decide +kernel) ⟨⟨64, (by decide +kernel), (by decide +kernel), (by decide +kernel), (by decide +kernel)⟩, (by decide +kernel), (by decide +kernel)⟩),
    Completes.runs ((h 4 {} (tDesc (tMv 2 9 [])) tComp (tNums (tE (tMv 2 9 []))) (by decide +kernel)).2.1 10485824 10485760 true (by decide +kernel) ⟨0, (by decide +kernel), (by decide +kernel), (by decide +kernel), (by decide +kernel)⟩ (by decide +kernel) ⟨⟨64, (by decide +kernel), (by decide +kernel), (by decide +kernel), (by decide +kernel)⟩, (by decide +kernel), (by decide +kernel)⟩),
    Completes.runs ((h 4 {} (tDesc (tMv 6 2097152 [])) tComp (tE (tMv 6 2097152 [])) (by decide +kernel)).2.2.1 10485824 (by decide +kernel) (by decide +kernel) ⟨⟨64, (by decide +kernel), (by decide +kernel), (by decide +kernel), (by decide +kernel)⟩, (by decide +kernel), (by decide +kernel)⟩),
    Completes.runs (((h 4 {} (tDesc (tMv 5 4096 [(12, 2)])) tComp (tTlb (tNums (tE (tMv 5 4096 [(12, 2)])))) (by decide +kernel)).2.2.2 0 true 0 0 ⟨0, 0x10000, 4096, .pool 0, true⟩ (by decide +kernel) (by decide +kernel) (by decide +kernel) (by decide +kernel) (by decide +kernel) (by decide +kernel) (by decide +kernel) (by decide +kernel) (by decide +kernel) (by decide +kernel)).1 (by decide +kernel) (by decide +kernel)),
    Completes.runs (((h 4 {} (tDesc (tMv 5 4096 [(12, 4)])) tComp (tTlb (tNums (tE (tMv 5 4096 [(12, 4)])))) (by decide +kernel)).2.2.2 0 true 0 0 ⟨0, 0x10000, 4096, .pool 0, true⟩ (by decide +kernel) (by decide +kernel) (by decide +kernel) (by decide +kernel) (by decide +kernel) (by decide +kernel) (by decide +kernel) (by decide +kernel) (by decide +kernel) (by decide +kernel)).2 10485760 (by decide +kernel) (by decide +kernel) (by decide +kernel))⟩

theorem test_meets_CheckEngine (h : Obligations.CheckEngine) :
    Runs (.compare 4 {}) (tNums (tE (tCk 1 8 []))) ∧
    Runs (.checksum 4 {}) (tNums (tE (tCk 2 8 []))) ∧
    Runs (.contentHash 4 {}) (tNums (tE (tCk 3 8 []))) ∧
    Runs (.scrub 4 {}) (tNums (tE (tCk 4 8 []))) :=
  ⟨Completes.runs ((h 4 {} (tDesc (tCk 1 8 [])) tComp 10485888 10485760 true (tNums (tE (tCk 1 8 []))) (by decide +kernel) (by decide +kernel) ⟨0, (by decide +kernel), (by decide +kernel), (by decide +kernel), (by decide +kernel)⟩ (by decide +kernel)).1 10485824 true (by decide +kernel) ⟨64, (by decide +kernel), (by decide +kernel), (by decide +kernel), (by decide +kernel)⟩ (by decide +kernel) ⟨⟨128, (by decide +kernel), (by decide +kernel), (by decide +kernel), (by decide +kernel)⟩, (by decide +kernel), (by decide +kernel)⟩),
    Completes.runs ((h 4 {} (tDesc (tCk 2 8 [])) tComp 10485888 10485760 true (tNums (tE (tCk 2 8 []))) (by decide +kernel) (by decide +kernel) ⟨0, (by decide +kernel), (by decide +kernel), (by decide +kernel), (by decide +kernel)⟩ (by decide +kernel)).2.1 (by decide +kernel) ⟨⟨128, (by decide +kernel), (by decide +kernel), (by decide +kernel), (by decide +kernel)⟩, (by decide +kernel), (by decide +kernel)⟩),
    Completes.runs ((h 4 {} (tDesc (tCk 3 8 [])) tComp 10485888 10485760 true (tNums (tE (tCk 3 8 []))) (by decide +kernel) (by decide +kernel) ⟨0, (by decide +kernel), (by decide +kernel), (by decide +kernel), (by decide +kernel)⟩ (by decide +kernel)).2.2.1 (by decide +kernel) ⟨⟨128, (by decide +kernel), (by decide +kernel), (by decide +kernel), (by decide +kernel)⟩, (by decide +kernel), (by decide +kernel)⟩),
    Completes.runs ((h 4 {} (tDesc (tCk 4 8 [])) tComp 10485888 10485760 true (tNums (tE (tCk 4 8 []))) (by decide +kernel) (by decide +kernel) ⟨0, (by decide +kernel), (by decide +kernel), (by decide +kernel), (by decide +kernel)⟩ (by decide +kernel)).2.2.2 (by decide +kernel) ⟨⟨128, (by decide +kernel), (by decide +kernel), (by decide +kernel), (by decide +kernel)⟩, (by decide +kernel), (by decide +kernel)⟩)⟩

/-- A migration of one page in flight. -/
def tMig (g : MigS) (d : Desc) : Desc := { d with slot := 3, phase := .waiting, mig := some g }

/-- A composition of three frames; its ASID 0 has tables at pool address 0x400000 that map 0x200000 to pool address 0 with one 2 MiB page. -/
def tComp3 : Comp := { tComp with near := [5, 6, 7], nearBytes := 6291456, spanBytes := 6291456 }

/-- The state with it, and a migration of that page to pool address 0x200000 ready to copy. -/
def tCopying : State :=
  let m : MigS := { batch := [⟨0x200000, 2097152, 0, 0x200000⟩] }
  let s := withBytes [(0xE00000, 1), (0xE00001, 0x10), (0xE00002, 0x40), (0xE01000, 1), (0xE01001, 0x20), (0xE01002, 0x40), (0xE02008, 0x13)]
    (withRegs [(CTU_ASID_ROOT 0, 0x400)] tS)
  { s with comps := [tComp3], slc := { descs := [tMig m (tDesc 0)] }, mem := { s.mem with written := [(3584, ()), (3585, ()), (3586, ())] } }

/-- The page of that migration. -/
def tPage : MovePage := ⟨0x200000, 2097152, 0, 0x200000⟩

/-- The migration. -/
def tMigS : MigS := { batch := [tPage] }

theorem tCopied_pages : ∀ o ∈ pagesOf 0 tPage.size, copyPool 4 tComp3 (tPage.src + o) (tPage.dst + o) tCopying = tCopying := by decide +kernel

theorem each_same {α : Type} (l : List α) (f : α → State → State) (s : State) (h : ∀ a ∈ l, f a s = s) : each l f s = s := by
  induction l with
  | nil => rfl
  | cons a l ih => show each l f (f a s) = s; rw [h a (by simp)]; exact ih (fun b hb => h b (by simp [hb]))

theorem tCopied_met : meetBatch tComp3 [tPage] [] tCopying = tCopying := each_same _ _ _ (fun _ _ => rfl)

theorem tCopied_eq : each (pagesOf 0 tPage.size) (fun o => copyPool 4 tComp3 (tPage.src + o) (tPage.dst + o))
    (meetBatch tComp3 [tPage] [] tCopying) = tCopying := by
  rw [tCopied_met]; exact each_same _ _ _ tCopied_pages

theorem tCopied_leaf :
    let s1 := each (pagesOf 0 tPage.size) (fun o => copyPool 4 tComp3 (tPage.src + o) (tPage.dst + o))
      (meetBatch tComp3 [tPage] [] tCopying)
    leafSlot tComp3 tPage.va 3 (fget (CTU_ASID_ROOT (dAsid (tMig tMigS (tDesc 0)).raw)) s1 * 4096) s1 = ((0x402008, 1, 0x13), s1) := by
  intro s1
  rw [show s1 = tCopying from tCopied_eq]; decide +kernel

theorem tCopied_line : LineAt tComp3.slot (0x402008 / 64) tComp3 0xE02000
    (each (pagesOf 0 tPage.size) (fun o => copyPool 4 tComp3 (tPage.src + o) (tPage.dst + o))
      (meetBatch tComp3 [tPage] [] tCopying)) := by
  rw [tCopied_eq]; decide +kernel

theorem test_meets_MigrationsOfPages (h : Obligations.MigrationsOfPages) :
    Runs (.migrate 4 {}) (tTlb (tE (tMv 3 4096 [(40, 0x2000)]))) ∧
    Runs (.movePrefetch 4 {}) (tTlb (tE (tMv 4 4096 [(40, 0x2000)]))) ∧
    Runs (.gatherPrefetch 4 {}) (tTlb (withBytes [(0xA00000, 1)] (tE (tGa 4 0)))) ∧
    Runs (.migrationBatchDrained 4) ({ tS with slc := { descs := [tMig { batch := [⟨0x10000, 4096, 0, 0x2000⟩], draining := true } (tDesc 0)] } }) ∧
    Runs (.migrationCopyDone 4 []) tCopying :=
  ⟨Completes.runs ((h.1 4 {} (tDesc (tMv 3 4096 [(40, 0x2000)])) tComp 0 true ⟨0, 0x10000, 4096, .pool 0, true⟩ (tTlb (tE (tMv 3 4096 [(40, 0x2000)]))) (by decide +kernel) (by decide +kernel) (by decide +kernel) (by decide +kernel) (by decide +kernel) (by decide +kernel) (by decide +kernel) (by decide +kernel) (by decide +kernel) (by decide +kernel) (by decide +kernel) (by decide +kernel) (by decide +kernel)).1 (by decide +kernel)),
    Completes.runs ((h.1 4 {} (tDesc (tMv 4 4096 [(40, 0x2000)])) tComp 0 true ⟨0, 0x10000, 4096, .pool 0, true⟩ (tTlb (tE (tMv 4 4096 [(40, 0x2000)]))) (by decide +kernel) (by decide +kernel) (by decide +kernel) (by decide +kernel) (by decide +kernel) (by decide +kernel) (by decide +kernel) (by decide +kernel) (by decide +kernel) (by decide +kernel) (by decide +kernel) (by decide +kernel) (by decide +kernel)).2 (by decide +kernel) (by decide +kernel)),
    Completes.runs (h.2.1 4 {} (tDesc (tGa 4 0)) tComp 10485760 68 true (tTlb (withBytes [(0xA00000, 1)] (tE (tGa 4 0)))) (by decide +kernel) (by decide +kernel) (by decide +kernel) (by decide +kernel) (by decide +kernel) ⟨⟨true, 0, (by decide +kernel), (by decide +kernel), (by decide +kernel), (by decide +kernel)⟩, (by decide +kernel), (by decide +kernel), (by decide +kernel)⟩ (by decide +kernel) (by decide +kernel) (by decide +kernel) (by decide +kernel) (by decide +kernel) (by decide +kernel) (fun w hw => ⟨⟨0, 0x10000, 4096, .pool 0, true⟩, (by decide +kernel), (by decide +kernel), by revert w; decide +kernel⟩)),
    Completes.runs (h.2.2.1 4 (tMig { batch := [⟨0x10000, 4096, 0, 0x2000⟩], draining := true } (tDesc 0)) { batch := [⟨0x10000, 4096, 0, 0x2000⟩], draining := true } tComp ({ tS with slc := { descs := [tMig { batch := [⟨0x10000, 4096, 0, 0x2000⟩], draining := true } (tDesc 0)] } }) (by decide +kernel) (by decide +kernel) (by decide +kernel) (by decide +kernel) (by decide +kernel) (by decide +kernel) (by decide +kernel)),
    Completes.runs (h.2.2.2 4 [] (tMig tMigS (tDesc 0)) tMigS tPage tComp3 0x402008 0x13 14688256 tCopying (by decide +kernel) (by decide +kernel) (by decide +kernel) (by decide +kernel) (by decide +kernel) (by decide +kernel) (by decide +kernel) (by decide +kernel) (by decide +kernel) (by decide +kernel) (by decide +kernel) (by decide +kernel) (by decide +kernel) (by decide +kernel) (by decide +kernel) tCopied_leaf (by decide +kernel) (by decide +kernel) tCopied_line (by decide +kernel))⟩

theorem test_meets_ChecksumContinues (h : Obligations.ChecksumContinues) :
    crcFrom polyCrc64 64 5 [1, 2, 3] = crcFrom polyCrc64 64 (crcFrom polyCrc64 64 5 [1]) [2, 3]
    ∧ crcFrom polyCrc32c 32 5 [1, 2, 3] = crcFrom polyCrc32c 32 (crcFrom polyCrc32c 32 5 [1]) [2, 3] :=
  ⟨(h 5 [1] [2, 3]).1 (by decide), (h 5 [1] [2, 3]).2 (by decide)⟩

/-- Port 4 in a role, its link down, able to train; its expected neighbour is port 9 of node 5. -/
def tTr (role : Nat) (q : PrtS) : State :=
  { withRegs [(PRT_STATUS_ROLE 4, role), (PRT_STATUS_LINK_UP 4, 0), (PWR_DOMAIN_ON, 2 ^ 32), (CLK_STATUS_XREF_A_OK, 1)] tRoute with img := { configured := true, poolSize := 1, ports := List.replicate 24 [role, 0, 0, 4, 0], neighbours := List.replicate 24 (5, 9) }, prt := q }

/-- Training that finds that neighbour. -/
def tGood : TrainIn := { farNode := 5, farPort := 9 }

/-- Port 4 in a role with its link up, of width x8. -/
def tLane (role : Nat) (q : PrtS) : State := withRegs [(PRT_STATUS_LINK_UP 4, 1), (PRT_STATUS_WIDTH 4, 2), (PRT_LANE_MARGIN_EYE_W 4 1, 5), (PRT_LANE_MARGIN_USE 4 1, 0), (PRT_LANE_MARGIN_USE 4 8, 0)] (tTr role q)

theorem test_meets_PortsTrain (h : Obligations.PortsTrain) :
    Runs (.portTraining 4 tGood) (tTr 3 {}) ∧
    Runs (.portTraining 4 { tGood with fail := true }) (tTr 3 {}) ∧
    Runs (.portTraining 4 { tGood with farPort := 8 }) (tTr 3 {}) ∧
    Runs (.portTraining 4 { tGood with authOk := false }) (tTr 3 {}) ∧
    Runs (.portTraining 4 tGood) (tTr 1 {}) ∧
    Runs (.trainingRetry 4 tGood) (tTr 3 { retry := [(4, 1)] }) ∧
    Runs (.trainingRetry 4 { tGood with farPort := 8 }) (tTr 3 { retry := [(4, 2)] }) ∧
    Runs (.peerAuthRetry 4 { tGood with authOk := false }) (tTr 3 { retry := [(4, 3)] }) ∧
    Runs (.portUp 4) (tTr 1 { ready := [(4, [2, 5, 0, 1, 1, 15])] }) ∧
    Runs (.portUp 4) (tTr 2 { ready := [(4, [2, 5, 0, 1, 1, 15])] }) ∧
    Runs (.portUp 4) (tTr 3 { ready := [(4, [2, 5, 0, 0, 1, 15])] }) ∧
    Runs (.retrain .mgmt 4 1) (tLane 3 { retry := [(4, 1)] }) :=
  ⟨Completes.runs ((((h.1 4 tGood (tTr 3 {}) (by decide +kernel) (by decide +kernel)).1 (by decide +kernel)).1 (by decide +kernel) (by decide +kernel) (by decide +kernel)).1 (by decide +kernel) (by decide +kernel)),
    Completes.runs ((((h.1 4 { tGood with fail := true } (tTr 3 {}) (by decide +kernel) (by decide +kernel)).1 (by decide +kernel)).2.1 (by decide +kernel)).1 (by decide +kernel) (by decide +kernel)),
    Completes.runs ((((h.1 4 { tGood with farPort := 8 } (tTr 3 {}) (by decide +kernel) (by decide +kernel)).1 (by decide +kernel)).2.2.1 (by decide +kernel) (by decide +kernel)).1 (by decide +kernel) (by decide +kernel)),
    Completes.runs ((((h.1 4 { tGood with authOk := false } (tTr 3 {}) (by decide +kernel) (by decide +kernel)).1 (by decide +kernel)).2.2.2 (by decide +kernel) (by decide +kernel) (by decide +kernel)).1 (by decide +kernel) (by decide +kernel)),
    Completes.runs (((h.1 4 tGood (tTr 1 {}) (by decide +kernel) (by decide +kernel)).2 (by decide +kernel) (by decide +kernel)).1 (by decide +kernel) (by decide +kernel)),
    Completes.runs ((((h.1 4 tGood (tTr 3 { retry := [(4, 1)] }) (by decide +kernel) (by decide +kernel)).1 (by decide +kernel)).1 (by decide +kernel) (by decide +kernel) (by decide +kernel)).2.1 (by decide +kernel)),
    Completes.runs ((((h.1 4 { tGood with farPort := 8 } (tTr 3 { retry := [(4, 2)] }) (by decide +kernel) (by decide +kernel)).1 (by decide +kernel)).2.2.1 (by decide +kernel) (by decide +kernel)).2.1 (by decide +kernel)),
    Completes.runs ((((h.1 4 { tGood with authOk := false } (tTr 3 { retry := [(4, 3)] }) (by decide +kernel) (by decide +kernel)).1 (by decide +kernel)).2.2.2 (by decide +kernel) (by decide +kernel) (by decide +kernel)).2.2 (by decide +kernel)),
    Completes.runs ((h.2.1 4 2 5 0 1 1 15 (tTr 1 { ready := [(4, [2, 5, 0, 1, 1, 15])] }) (by decide +kernel) (by decide +kernel) (by decide +kernel) (by decide +kernel) (by decide +kernel) (by decide +kernel) (by decide +kernel)).1 (by decide +kernel)),
    Completes.runs ((h.2.1 4 2 5 0 1 1 15 (tTr 2 { ready := [(4, [2, 5, 0, 1, 1, 15])] }) (by decide +kernel) (by decide +kernel) (by decide +kernel) (by decide +kernel) (by decide +kernel) (by decide +kernel) (by decide +kernel)).1 (by decide +kernel)),
    Completes.runs ((h.2.1 4 2 5 0 0 1 15 (tTr 3 { ready := [(4, [2, 5, 0, 0, 1, 15])] }) (by decide +kernel) (by decide +kernel) (by decide +kernel) (by decide +kernel) (by decide +kernel) (by decide +kernel) (by decide +kernel)).2 5 9 (by decide +kernel) (by decide +kernel) (by decide +kernel)),
    Completes.runs (h.2.2 .mgmt 4 1 (tLane 3 { retry := [(4, 1)] }) (by decide +kernel) (by decide +kernel) (by decide +kernel) (by decide +kernel) (by decide +kernel) (by decide +kernel))⟩

theorem test_meets_LanesOfAPort (h : Obligations.LanesOfAPort) :
    Runs (.laneLoss 4 0 1 true) (tLane 3 {}) ∧
    Runs (.laneLoss 4 0 8 true) (tLane 3 {}) ∧
    Runs (.laneLoss 4 0 1 true) (tLane 3 { lost := [(259, ())] }) ∧
    Runs (.laneLoss 4 0 1 true) (tLane 1 {}) ∧
    Runs (.laneRebuilt 4) (tLane 3 { rebuilding := [(4, ())], lost := [(259, ())] }) ∧
    Runs (.x4RetrainDone 4) (withRegs [(FAB_NODE_MASTER, 1)] (tLane 3 { retraining := [(4, ())], lost := [(259, ()), (260, ())] })) ∧
    Runs (.pcieRecoveryDone 4) (tLane 1 { recovering := [(4, 1)] }) ∧
    Runs (.eyeMeasurement 4 [(0, 5, 6), (8, 7, 8)]) (tLane 3 {}) ∧
    Runs (.marginNow .mgmt 4 0 [(0, 5, 6), (8, 7, 8)]) (tLane 3 {}) :=
  ⟨Completes.runs (((h.1 4 0 1 true (tLane 3 {}) (by decide +kernel) (by decide +kernel) (by decide +kernel) (by decide +kernel)).1 (by decide +kernel) (by decide +kernel)).1 (by decide +kernel)),
    Completes.runs (((h.1 4 0 8 true (tLane 3 {}) (by decide +kernel) (by decide +kernel) (by decide +kernel) (by decide +kernel)).1 (by decide +kernel) (by decide +kernel)).1 (by decide +kernel)),
    Completes.runs (((h.1 4 0 1 true (tLane 3 { lost := [(259, ())] }) (by decide +kernel) (by decide +kernel) (by decide +kernel) (by decide +kernel)).1 (by decide +kernel) (by decide +kernel)).2 (by decide +kernel)),
    Completes.runs ((h.1 4 0 1 true (tLane 1 {}) (by decide +kernel) (by decide +kernel) (by decide +kernel) (by decide +kernel)).2 (by decide +kernel) (by decide +kernel)),
    Completes.runs ((h.2.1 4 (tLane 3 { rebuilding := [(4, ())], lost := [(259, ())] })).1 (by decide +kernel)),
    Completes.runs ((h.2.1 4 (withRegs [(FAB_NODE_MASTER, 1)] (tLane 3 { retraining := [(4, ())], lost := [(259, ()), (260, ())] }))).2.1 (by decide +kernel) (by decide +kernel)),
    Completes.runs ((h.2.1 4 (tLane 1 { recovering := [(4, 1)] })).2.2 1 (by decide +kernel) (by decide +kernel) (by decide +kernel)),
    Completes.runs ((h.2.2 4 [(0, 5, 6), (8, 7, 8)] (tLane 3 {}) (by decide +kernel)).1),
    Completes.runs ((h.2.2 4 [(0, 5, 6), (8, 7, 8)] (tLane 3 {}) (by decide +kernel)).2 .mgmt 0 (by decide +kernel) (by decide +kernel) (by decide +kernel))⟩

/-- A host's port 0 that trains, its link up; its decoder of entry 2 is committed. -/
def tPort (role : Nat) : State :=
  { withRegs [(PRT_STATUS_ROLE 0, role)] tH with img := { configured := true, poolSize := 1, ports := List.replicate 24 [role, 0, 0, 4, 0] }, prt := { hdm := [(2, ⟨0x100000000, 268435456⟩), (21, ⟨0, 0⟩)], perst := [(0, ())] } }

/-- A host with a rate of its own, whose memory has node 5 for its home; a read of it waits at port 0. -/
def tRated : State :=
  { withRegs [(PRT_AGENT_BI_ID 0 2, 0x55), (PRT_STATUS_ROLE 0, 1), (PRT_STATUS_LINK_UP 0, 1), (PRT_AGENT_VALID 0 2, 1), (PRT_AGENT_SLOT 0 2, 3), (PRT_AGENT_AGENT 0 2, 1)] tRoute with comps := [{ tComp2 with members := [5, 0], hostRate := 2 }], prt := { hdm := [(2, ⟨0x100000000, 4194304⟩)], drained := [(2, 65500)], rateHeld := [(0, [⟨.rdData, { port := 0, biId := 0x55, hpa := 0x100000000 }⟩])] } }

theorem test_meets_FunctionsOfHostPorts (h : Obligations.FunctionsOfHostPorts) :
    Runs (.perstAssert 0) (tPort 1) ∧
    Runs (.perstRelease 0) (tPort 1) ∧
    Runs (.conventionalReset 0) (tPort 1) ∧
    Runs (.hdmCommit 0 2 0 268435456 1) (tPort 1) ∧
    Runs (.hdmCommit 0 2 0 268435456 2) (tPort 1) ∧
    Runs (.hdmCommit 0 2 5 268435456 1) (tPort 1) ∧
    Runs (.agentEntryWrite .mgmt 0 2 ⟨0, true, 0x1⟩) (tPort 1) ∧
    Runs (.agentEntryWrite .mgmt 0 2 ⟨0, true, 0x20D⟩) (tPort 1) ∧
    Runs (.rateHoldRelease 0) tRated :=
  ⟨Completes.runs ((h.1 0 (tPort 1)).1 (by decide +kernel) (by decide +kernel)),
    Completes.runs ((h.1 0 (tPort 1)).2.1),
    Completes.runs ((h.1 0 (tPort 1)).2.2 (by decide +kernel)),
    Completes.runs (h.2.1 0 2 0 268435456 1 (tPort 1) (by decide +kernel) (by decide +kernel) (by decide +kernel)),
    Completes.runs (h.2.1 0 2 0 268435456 2 (tPort 1) (by decide +kernel) (by decide +kernel) (by decide +kernel)),
    Completes.runs (h.2.1 0 2 5 268435456 1 (tPort 1) (by decide +kernel) (by decide +kernel) (by decide +kernel)),
    Completes.runs ((h.2.2.1 .mgmt 0 2 ⟨0, true, 0x1⟩ (tPort 1) (by decide +kernel) (by decide +kernel)).2 (by decide +kernel)),
    Completes.runs ((h.2.2.1 .mgmt 0 2 ⟨0, true, 0x20D⟩ (tPort 1) (by decide +kernel) (by decide +kernel)).1 (by decide +kernel)),
    Completes.runs (h.2.2.2 0 2 ⟨.rdData, { port := 0, biId := 0x55, hpa := 0x100000000 }⟩ { tComp2 with members := [5, 0], hostRate := 2 } 0 0 0 5 4 tRated (by decide +kernel) (by decide +kernel) (by decide +kernel) (by decide +kernel) (by decide +kernel) (by decide +kernel) (by decide +kernel) (by decide +kernel) (by decide +kernel) (by decide +kernel) (by decide +kernel) (by decide +kernel))⟩

/-- The clocks: the plan, which XREFs are good, whether the IRO is qualified. -/
def tClk (plan a b iro : Nat) (c : ClkS) : State :=
  { withRegs [(CLK_STATUS_PLAN, plan), (CLK_STATUS_XREF_A_OK, a), (CLK_STATUS_XREF_B_OK, b), (CLK_STATUS_IRO_QUAL, iro)] tS with clk := c }

theorem test_meets_ClockMonitorsAndPlans (h : Obligations.ClockMonitorsAndPlans) :
    Runs .clockStartTimeout (tClk 0 0 0 1 {}) ∧
    Runs .clockStartTimeout (tClk 0 0 0 0 {}) ∧
    Runs (.lfrefWindow (some 0)) (tClk 1 1 1 1 { lfRun := 1 }) ∧
    Runs (.lfrefWindow none) (tClk 1 1 1 1 {}) ∧
    Runs .lfrefEdgeLoss (tClk 1 1 1 1 {}) ∧
    Runs (.iroWindow (some 0)) (tClk 1 1 1 0 {}) ∧
    Runs (.iroWindow none) (tClk 1 1 1 1 {}) ∧
    Runs .iroTrimEnd (tClk 2 0 1 1 {}) ∧
    Runs (.xrefVoteWindow ⟨some 0, some 0, some 0, some 0, some 0⟩) (tClk 1 0 1 1 { aFailed := true, aRun := 3 }) ∧
    Runs (.xrefVoteWindow ⟨none, some 0, some 0, some 0, some 0⟩) (tClk 1 1 1 1 {}) ∧
    Runs (.xrefEdgeLoss false) (tClk 1 1 1 0 {}) ∧
    Runs (.holdRetry ⟨some 0, some 0, some 0, some 0, some 0⟩ none) (tClk 3 0 0 0 {}) ∧
    Runs (.holdRetry ⟨none, none, some 0, some 0, some 0⟩ none) (tClk 3 1 1 1 {}) ∧
    Runs (.returnMain .mgmt 3) (tClk 2 0 1 1 {}) ∧
    Runs .mainPllLocked (tClk 2 0 1 1 { lockTo := some 1 }) ∧
    Runs .aorcFail (tClk 1 1 1 1 {}) ∧
    Runs .aorcFail (tClk 1 1 1 0 {}) :=
  ⟨Completes.runs ((h.1 (tClk 0 0 0 1 {}) (by decide +kernel) (by decide +kernel) (by decide +kernel)).1 (by decide +kernel)),
    Completes.runs ((h.1 (tClk 0 0 0 0 {}) (by decide +kernel) (by decide +kernel) (by decide +kernel)).2 (by decide +kernel)),
    Completes.runs (h.2.1 (some 0) (tClk 1 1 1 1 { lfRun := 1 }) (by decide +kernel)),
    Completes.runs (h.2.1 none (tClk 1 1 1 1 {}) (by decide +kernel)),
    Completes.runs (h.2.2.1 (tClk 1 1 1 1 {}) (by decide +kernel)),
    Completes.runs ((h.2.2.2.1 (some 0) (tClk 1 1 1 0 {}) (by decide +kernel)).1 (by decide +kernel)),
    Completes.runs ((h.2.2.2.1 none (tClk 1 1 1 1 {}) (by decide +kernel)).2.1 (by decide +kernel) (by decide +kernel)),
    Completes.runs ((h.2.2.2.1 none (tClk 2 0 1 1 {}) (by decide +kernel)).2.2 (by decide +kernel) (by decide +kernel) 1 (by decide +kernel)),
    Completes.runs ((h.2.2.2.2.1 ⟨some 0, some 0, some 0, some 0, some 0⟩ (tClk 1 0 1 1 { aFailed := true, aRun := 3 }) (by decide +kernel) (by decide +kernel) (by decide +kernel) (by decide +kernel)).1 (by decide +kernel) (by decide +kernel) (by decide +kernel) (by decide +kernel) (by decide +kernel)),
    Completes.runs ((h.2.2.2.2.1 ⟨none, some 0, some 0, some 0, some 0⟩ (tClk 1 1 1 1 {}) (by decide +kernel) (by decide +kernel) (by decide +kernel) (by decide +kernel)).2 (by decide +kernel) (by decide +kernel) (by decide +kernel) (by decide +kernel) (by decide +kernel) (by decide +kernel) (by decide +kernel)),
    Completes.runs (h.2.2.2.2.2.1 false (tClk 1 1 1 0 {}) (by decide +kernel) (by decide +kernel) (by decide +kernel) (by decide +kernel) (by decide +kernel) (by decide +kernel) (by decide +kernel)),
    Completes.runs ((h.2.2.2.2.2.2.1 ⟨some 0, some 0, some 0, some 0, some 0⟩ none (tClk 3 0 0 0 {}) (by decide +kernel) (by decide +kernel)).1 (by decide +kernel) (by decide +kernel)),
    Completes.runs ((h.2.2.2.2.2.2.1 ⟨none, none, some 0, some 0, some 0⟩ none (tClk 3 1 1 1 {}) (by decide +kernel) (by decide +kernel)).2 (by decide +kernel) (by decide +kernel) (by decide +kernel)),
    Completes.runs (h.2.2.2.2.2.2.2.1 .mgmt 3 (tClk 2 0 1 1 {}) (by decide +kernel) (by decide +kernel) (by decide +kernel) (by decide +kernel) (by decide +kernel)),
    Completes.runs (h.2.2.2.2.2.2.2.2.1 1 (tClk 2 0 1 1 { lockTo := some 1 }) (by decide +kernel) (by decide +kernel) (by decide +kernel) (by decide +kernel)),
    Completes.runs ((h.2.2.2.2.2.2.2.2.2 (tClk 1 1 1 1 {}) (by decide +kernel)).1 (by decide +kernel)),
    Completes.runs ((h.2.2.2.2.2.2.2.2.2 (tClk 1 1 1 0 {}) (by decide +kernel)).2 (by decide +kernel) (by decide +kernel))⟩

/-- Tile 1 in a power state, with the tiles' domain on; vault group 1 retains as told. -/
def tTile (power retain : Nat) : State := withRegs [(TIL_STATE_POWER 1, power), (PWR_DOMAIN_ON, 2 ^ 36), (PWR_RETAIN_SELF_REFRESH, retain), (TIL_STATE_INCARNATION 1, 65535)] tS

theorem test_meets_TilesGateAndWake (h : Obligations.TilesGateAndWake) :
    Runs (.tileGate 1) (tTile 2 0) ∧
    Runs (.tileGated 1) (tTile 3 0) ∧
    Runs (.tileWake 1) (tTile 0 0) ∧
    Runs (.tileWake 1) (tTile 3 0) ∧
    Runs (.vaultSelfRefresh 1) (tTile 0 0) ∧
    Runs (.selfRefreshExit 1) (tTile 0 2) ∧
    Runs (.pwrWakeWrite .mgmt 3) (tTile 3 0) ∧
    Runs (.tileWakeDone 1) (tTile 1 2) :=
  ⟨Completes.runs ((h.1 1 (tTile 2 0)).1 (by decide +kernel) (by decide +kernel) (by decide +kernel) (by decide +kernel)),
    Completes.runs ((h.1 1 (tTile 3 0)).2.1 (by decide +kernel) (by decide +kernel) (by decide +kernel) (by decide +kernel)),
    Completes.runs ((h.1 1 (tTile 0 0)).2.2.1 (by decide +kernel) (by decide +kernel)),
    Completes.runs ((h.1 1 (tTile 3 0)).2.2.2.1 (by decide +kernel)),
    Completes.runs ((h.1 1 (tTile 0 0)).2.2.2.2.1 (by decide +kernel)),
    Completes.runs ((h.1 1 (tTile 0 2)).2.2.2.2.2 (by decide +kernel) (by decide +kernel)),
    Completes.runs (h.2.1 .mgmt 3 (tTile 3 0) (by decide +kernel) (by decide +kernel)),
    Completes.runs (h.2.2 1 (tTile 1 2) (by decide +kernel) (by decide +kernel) (by decide +kernel))⟩

/-- The governor in a state, with 500 s of burst granted. -/
def tGov (gov limit plan : Nat) (p : PwrS) : State :=
  { withRegs [(PWR_STATUS_GOV_CODE, gov), (PWR_STATUS_LIMIT, limit), (CLK_STATUS_PLAN, plan)] tS with pwr := p, lr := { cur := { burstGranted := 500000, burstUsed := 9 }, ahead := 9 }, img := { tS.img with powerPlan := [0, 0, 0, 0, 1] } }

/-- Beryl runs and supplies are up. -/
def tUp (seq fails : Nat) : State := { withRegs [(GLB_PKG_STATUS_PWRGD_MAIN, 1)] (tE 0) with pwr := { seq := seq, seqFails := fails } }

theorem test_meets_PowerGovernorAndBudget (h : Obligations.PowerGovernorAndBudget) :
    Runs (.governorSample 900000) (tGov 100 0 1 {}) ∧
    Runs (.governorSample 1200000) (tGov 100 1 1 { inBurst := true, burst := 200000 }) ∧
    Runs (.governorSample 1600000) (tGov 100 1 1 { inBurst := true }) ∧
    Runs .governorRaise (tGov 100 0 1 { throttle := 2 }) ∧
    Runs .governorRaise (tGov 100 0 1 {}) ∧
    Runs (.powerCalibration 900000 true) (tGov 100 0 1 {}) ∧
    Runs (.powerCalibration 900000 false) (tGov 100 0 1 {}) ∧
    Runs (.thermalLoop 104 86) (tGov 100 0 1 {}) ∧
    Runs (.thermalLoop 100 90) (tGov 100 0 1 {}) ∧
    Runs (.thermalLoop 102 20) (tGov 100 0 1 {}) ∧
    Runs .burstCharge (tGov 100 1 1 { exceeded := true, sum := 3000000, count := 2 }) ∧
    Runs .burstCharge (tGov 100 0 1 {}) ∧
    Runs (.renew .mgmt 1) (tGov 100 0 1 {}) :=
  ⟨Completes.runs ((h.1 900000 (tGov 100 0 1 {})).1 (by decide +kernel)),
    Completes.runs ((h.1 1200000 (tGov 100 1 1 { inBurst := true, burst := 200000 })).2.1 (by decide +kernel) (by decide +kernel) (by decide +kernel) (by decide +kernel) (by decide +kernel) (by decide +kernel) (by decide +kernel)),
    Completes.runs ((h.1 1600000 (tGov 100 1 1 { inBurst := true })).2.2 (by decide +kernel) (by decide +kernel) (by decide +kernel) (by decide +kernel) (by decide +kernel) (by decide +kernel) (by decide +kernel)),
    Completes.runs ((h.2.1 (tGov 100 0 1 { throttle := 2 }) (by decide +kernel) (by decide +kernel) (by decide +kernel)).1 (by decide +kernel)),
    Completes.runs ((h.2.1 (tGov 100 0 1 {}) (by decide +kernel) (by decide +kernel) (by decide +kernel)).2 (by decide +kernel) (by decide +kernel)),
    Completes.runs ((h.2.2.1 900000 (tGov 100 0 1 {})).1),
    Completes.runs ((h.2.2.1 900000 (tGov 100 0 1 {})).2),
    Completes.runs (h.2.2.2.1 104 86 (tGov 100 0 1 {}) (by decide +kernel)),
    Completes.runs (h.2.2.2.1 100 90 (tGov 100 0 1 {}) (by decide +kernel)),
    Completes.runs (h.2.2.2.1 102 20 (tGov 100 0 1 {}) (by decide +kernel)),
    Completes.runs (h.2.2.2.2.1 (tGov 100 1 1 { exceeded := true, sum := 3000000, count := 2 })),
    Completes.runs (h.2.2.2.2.1 (tGov 100 0 1 {})),
    Completes.runs (h.2.2.2.2.2 .mgmt 1 (tGov 100 0 1 {}) (by decide +kernel) (by decide +kernel) (by decide +kernel))⟩

theorem test_meets_SuppliesAndRails (h : Obligations.SuppliesAndRails) :
    Runs (.pwrgdAonRise 0x155 true 2 1) (tUp 0 0) ∧
    Runs .pwrgdAonFall (tUp 7 0) ∧
    Runs .pwrgdMainRise (tUp 6 0) ∧
    Runs (.railPowerGood 2) (tUp 3 0) ∧
    Runs (.railPowerGood 3) (tUp 2 0) ∧
    Runs (.railTimeout 2) (tUp 3 0) ∧
    Runs (.railTimeout 2) (tUp 3 1) ∧
    Runs .sequenceRetry (tUp 0 1) ∧
    Runs (.seqRetry tM) (tUp 0 1) ∧
    Runs (.mainPowerLoss false) (tUp 7 0) ∧
    Runs (.mainPowerLoss true) (tUp 7 0) ∧
    Runs (.thermalTrip 116 20) (tUp 7 0) ∧
    Runs (.pmbAlert 1 9 true) (tUp 7 0) ∧
    Runs (.pmbAlert 1 9 false) (tUp 7 0) :=
  ⟨Completes.runs (h.1 0x155 true 2 1 (tUp 0 0)),
    Completes.runs (h.2.1 (tUp 7 0)),
    Completes.runs (h.2.2.1 (tUp 6 0)),
    Completes.runs ((h.2.2.2.1 2 (tUp 3 0) (by decide +kernel)).1),
    Completes.runs ((h.2.2.2.1 3 (tUp 2 0) (by decide +kernel)).1),
    Completes.runs ((h.2.2.2.1 2 (tUp 3 0) (by decide +kernel)).2 (by decide +kernel)),
    Completes.runs ((h.2.2.2.1 2 (tUp 3 1) (by decide +kernel)).2 (by decide +kernel)),
    Completes.runs (h.2.2.2.2.1 (tUp 0 1) (by decide +kernel) (by decide +kernel)),
    Completes.runs (h.2.2.2.2.2.1 tM (tUp 0 1) (by decide +kernel) (by decide +kernel) (by decide +kernel)),
    Completes.runs (h.2.2.2.2.2.2.1 false (tUp 7 0) (by decide +kernel)),
    Completes.runs (h.2.2.2.2.2.2.1 true (tUp 7 0) (by decide +kernel)),
    Completes.runs (h.2.2.2.2.2.2.2.1 116 20 (tUp 7 0) (by decide +kernel) (by decide +kernel)),
    Completes.runs ((h.2.2.2.2.2.2.2.2 1 9 (tUp 7 0)).1),
    Completes.runs ((h.2.2.2.2.2.2.2.2 1 9 (tUp 7 0)).2)⟩

theorem test_meets_Resets (h : Obligations.Resets) :
    Runs .coldReset (tUp 7 0) ∧
    Runs .coldReset ({ tS with pwr := { aon := false } }) ∧
    Runs (.warmReset tM) (tUp 7 0) :=
  ⟨Completes.runs (h.1 (tUp 7 0) (by decide +kernel)),
    ⟨_, h.2.1 { tS with pwr := { aon := false } } (by decide +kernel)⟩,
    Completes.runs (h.2.2 tM (tUp 7 0) (by decide +kernel))⟩

/-- Layer 12 is the spare one; a descriptor of the composition's slot is in flight. -/
def tRas (spare : Nat) (p : PanS) : State :=
  { withRegs [(RAS_STATUS_SPARE_LAYER, spare), (RAS_CTL_LAYER_CE_LIMIT, 0)] (tE 0) with slc := { descs := [{ tDesc 0 with slot := 3 }] }, pan := p, lr := { cur := { spareLayer := spare } } }

theorem test_meets_ScrubSparingAndAudits (h : Obligations.ScrubSparingAndAudits) :
    Runs (.patrolScrubPass [] true true) (tRas 12 { layerCe := [(2, 5)] }) ∧
    Runs (.patrolScrubPass [⟨163840, 2, false⟩] false false) (tRas 12 {}) ∧
    Runs (.patrolScrubPass [⟨163840, 2, true⟩] false false) (tRas 12 {}) ∧
    Runs (.layerSpareNow .mgmt 0x50000) (tRas 12 {}) ∧
    Runs (.layerSpareNow .mgmt 0x50000) (tRas 15 {}) ∧
    Runs (.layerCopyDone []) (tRas 12 { sparing := some 2 }) ∧
    Runs (.configGoldenCheck 3 false) (tRas 12 {}) ∧
    Runs (.configGoldenCheck 0 true) (tRas 12 {}) ∧
    Runs (.conservationAudit [(4, 3)]) (tRas 12 {}) ∧
    Runs (.conservationAudit [(6, 3)]) (tRas 12 {}) ∧
    Runs (.failCmd .mgmt 3) (tRas 12 {}) ∧
    Runs (.failCmd .mgmt 4) (tRas 12 {}) :=
  ⟨Completes.runs ((h.1 2 163840 (tRas 12 { layerCe := [(2, 5)] }) (by decide +kernel) (by decide +kernel)).1),
    Completes.runs ((h.1 2 163840 (tRas 12 {}) (by decide +kernel) (by decide +kernel)).2.1),
    Completes.runs ((h.1 2 163840 (tRas 12 {}) (by decide +kernel) (by decide +kernel)).2.2),
    Completes.runs ((h.2.1 .mgmt 0x50000 (tRas 12 {}) (by decide +kernel) (by decide +kernel) (by decide +kernel)).1 (by decide +kernel) (by decide +kernel) (by decide +kernel)),
    Completes.runs ((h.2.1 .mgmt 0x50000 (tRas 15 {}) (by decide +kernel) (by decide +kernel) (by decide +kernel)).2 (by decide +kernel)),
    Completes.runs (h.2.2.1 2 (tRas 12 { sparing := some 2 }) (by decide +kernel)),
    Completes.runs ((h.2.2.2.1 3 (tRas 12 {}) (by decide +kernel)).1),
    Completes.runs ((h.2.2.2.1 3 (tRas 12 {}) (by decide +kernel)).2),
    Completes.runs ((h.2.2.2.2.1 4 3 tComp (tRas 12 {}) (by decide +kernel) (by decide +kernel)).1 (by decide +kernel) (by decide +kernel)),
    Completes.runs ((h.2.2.2.2.1 6 3 tComp (tRas 12 {}) (by decide +kernel) (by decide +kernel)).2 (by decide +kernel) (by decide +kernel) (by decide +kernel) (by decide +kernel) (by decide +kernel)),
    Completes.runs ((h.2.2.2.2.2 .mgmt 3 tComp (tRas 12 {}) (by decide +kernel) (by decide +kernel) (by decide +kernel)).1 (by decide +kernel) (by decide +kernel) (by decide +kernel) (by decide +kernel) (by decide +kernel)),
    Completes.runs ((h.2.2.2.2.2 .mgmt 4 tComp (tRas 12 {}) (by decide +kernel) (by decide +kernel) (by decide +kernel)).2 (by decide +kernel))⟩

/-- A signed command. -/
def tSig : SigCmd := { secured := true, fresh := true, nonce := 5, uid := 0, alg := 1, slot := 1, ecdsa := [1], mldsa := [] }

theorem test_meets_SignedCommandsAndSessions (h : Obligations.SignedCommandsAndSessions) :
    Runs (.slotWrite tSig 1 (List.replicate 97 1) (List.replicate 2592 2)) tS ∧
    Runs (.slotRevoke tSig 1) (withRegs [(SEC_STATUS_IMGKEY, 5)] tS) ∧
    Runs (.setRequirePq tSig) (withRegs [(SEC_STATUS_IMGKEY, 5)] tS) ∧
    Runs (.debugUnlock tSig) (withRegs [(SEC_STATUS_IMGKEY, 5)] tS) ∧
    Runs (.getMeasurements (.mgmt false) 0x13) tH ∧
    Runs (.getMeasurements (.doe 0 0x100) 6) tH ∧
    Runs (.keyExchange (.doe 0 0x100)) tH ∧
    Runs (.getMeasurements (.doe 0 0x101) 6) tH ∧
    Runs (.keyExchange (.doe 0 0x101)) tH :=
  ⟨Completes.runs ((h.1 tSig 1 (List.replicate 97 1) (List.replicate 2592 2) tS (by decide +kernel) (by decide +kernel)).1),
    Completes.runs ((h.1 tSig 1 [] [] (withRegs [(SEC_STATUS_IMGKEY, 5)] tS) (by decide +kernel) (by decide +kernel)).2.1),
    Completes.runs ((h.1 tSig 1 [] [] (withRegs [(SEC_STATUS_IMGKEY, 5)] tS) (by decide +kernel) (by decide +kernel)).2.2.1),
    Completes.runs ((h.1 tSig 1 [] [] (withRegs [(SEC_STATUS_IMGKEY, 5)] tS) (by decide +kernel) (by decide +kernel)).2.2.2),
    Completes.runs ((h.2.1 (.mgmt false) none 0x13 tH (by decide +kernel) (Or.inl ⟨rfl, _, rfl⟩)).1),
    Completes.runs ((h.2.1 (.doe 0 0x100) (some 3) 6 tH (by decide +kernel) (Or.inr ⟨0, 0x100, 2, rfl, (by decide +kernel), (by decide +kernel), (by decide +kernel)⟩)).1),
    Completes.runs ((h.2.1 (.doe 0 0x100) (some 3) 6 tH (by decide +kernel) (Or.inr ⟨0, 0x100, 2, rfl, (by decide +kernel), (by decide +kernel), (by decide +kernel)⟩)).2),
    Completes.runs ((h.2.2.1 0 0x101 6 tH (by decide +kernel) (by decide +kernel)).1),
    Completes.runs ((h.2.2.1 0 0x101 6 tH (by decide +kernel) (by decide +kernel)).2)⟩

/-- Beryl meters the composition; 11 counters and a count of lines. -/
def tBrl (b : BrlS) : State := { tH with brl := { b with meters := [(3, { cmpId := 7, instance_ := 1, counts := List.replicate 12 100, since := 90000 })] } }

/-- The meter. -/
def tMeter : Meter := { cmpId := 7, instance_ := 1, counts := List.replicate 12 100, since := 90000 }

theorem test_meets_BerylCountersAndTime (h : Obligations.BerylCountersAndTime) :
    Runs .meterTick (tBrl { declared := some 77 }) ∧
    Runs .meterTick (withRegs [(BRL_STATUS_CIVIL_VALID, 1), (BRL_CIVIL, 5)] (tBrl {})) ∧
    Runs (.meterTokens 3 [(2, 5)] 7) (tBrl {}) ∧
    Runs .checkpoint (tBrl {}) ∧
    Runs (.berylPowerUp [2]) ({ tS with brl := { on := false, fwDigest := [1], check := { meters := [(3, tMeter)], sealCnt := 4, decls := 2, reportSeq := 9 } } }) ∧
    Runs .berylWatchdog (tBrl {}) ∧
    Runs .berylRestartDone (tBrl { restarting := true }) ∧
    Runs .berylRestartDone (tBrl { restarting := true, deferred := [3] }) ∧
    Runs (.setCivilTime 2024 2 29 23 59 59 999) (tBrl {}) ∧
    Runs (.setCivilTime 2023 2 29 0 0 0 0) (tBrl {}) :=
  ⟨Completes.runs (h.1 (tBrl { declared := some 77 }) (by decide +kernel) (by decide +kernel)),
    Completes.runs (h.1 (withRegs [(BRL_STATUS_CIVIL_VALID, 1), (BRL_CIVIL, 5)] (tBrl {})) (by decide +kernel) (by decide +kernel)),
    Completes.runs (h.2.1 3 2 5 7 tMeter (tBrl {}) (by decide +kernel) (by decide +kernel)),
    Completes.runs (h.2.2.1 (tBrl {}) (by decide +kernel)),
    Completes.runs (h.2.2.2.1 [2] { tS with brl := { on := false, fwDigest := [1], check := { meters := [(3, tMeter)], sealCnt := 4, decls := 2, reportSeq := 9 } } } (by decide +kernel) (by decide +kernel) (by decide +kernel)),
    Completes.runs (h.2.2.2.2.1 (tBrl {}) (by decide +kernel)),
    Completes.runs ((h.2.2.2.2.2.1 (tBrl { restarting := true })).1 (by decide +kernel)),
    Completes.runs ((h.2.2.2.2.2.1 (tBrl { restarting := true, deferred := [3] })).2 3 tComp tMeter (by decide +kernel) (by decide +kernel) (by decide +kernel)),
    Completes.runs ((h.2.2.2.2.2.2 2024 2 29 23 59 59 999 (tBrl {}) (by decide +kernel)).2),
    Completes.runs ((h.2.2.2.2.2.2 2023 2 29 0 0 0 0 (tBrl {}) (by decide +kernel)).2)⟩

theorem test_meets_BerylReports (h : Obligations.BerylReports) :
    Runs (.periodicReport 3) (tBrl { subs := [(0, 9)], cfg := [0, 0, 60] }) ∧
    Runs (.onDemand (.mgmt true) 3) (tBrl { subs := [(0, 9)] }) ∧
    Runs (.onDemand (.doe 0 0x100) 3) (tBrl { subs := [(0, 9)] }) ∧
    Runs (.onDemand (.mgmt true) 3) (tBrl { restarting := true }) ∧
    Runs (.onDemand (.doe 0 0x100) 4) (tBrl { subs := [(0, 9)] }) ∧
    Runs (.onDemand (.doe 0 0x101) 4) (tBrl { subs := [(0, 9)] }) ∧
    Runs .reportPushRetry (tBrl { subs := [(0, 9)], pushed := [⟨5, 1, [1]⟩, ⟨6, 1, [2]⟩], held := [⟨5, 1, [1]⟩, ⟨6, 1, [2]⟩], journal := [[1], [2], [3]] }) ∧
    Runs (.reportRead tM 5 2) (tBrl { subs := [(0, 9)], pushed := [⟨5, 1, [1]⟩, ⟨6, 1, [2]⟩], held := [⟨5, 1, [1]⟩, ⟨6, 1, [2]⟩], journal := [[1], [2], [3]] }) ∧
    Runs (.reportAck tM 5) (tBrl { subs := [(0, 9)], pushed := [⟨5, 1, [1]⟩, ⟨6, 1, [2]⟩], held := [⟨5, 1, [1]⟩, ⟨6, 1, [2]⟩], journal := [[1], [2], [3]] }) ∧
    Runs (.journalExtract tM 1 2) (tBrl { subs := [(0, 9)], pushed := [⟨5, 1, [1]⟩, ⟨6, 1, [2]⟩], held := [⟨5, 1, [1]⟩, ⟨6, 1, [2]⟩], journal := [[1], [2], [3]] }) :=
  ⟨Completes.runs ((h.1 3 tComp tMeter (tBrl { subs := [(0, 9)], cfg := [0, 0, 60] }) (by decide +kernel) (by decide +kernel) (by decide +kernel) (by decide +kernel) (by decide +kernel)).1 (by decide +kernel) (by decide +kernel)),
    Completes.runs (((h.1 3 tComp tMeter (tBrl { subs := [(0, 9)] }) (by decide +kernel) (by decide +kernel) (by decide +kernel) (by decide +kernel) (by decide +kernel)).2 (.mgmt true) (Or.inl ⟨_, rfl, (by decide +kernel)⟩)).1 (by decide +kernel)),
    Completes.runs (((h.1 3 tComp tMeter (tBrl { subs := [(0, 9)] }) (by decide +kernel) (by decide +kernel) (by decide +kernel) (by decide +kernel) (by decide +kernel)).2 (.doe 0 0x100) (Or.inr ⟨0, 0x100, 2, rfl, (by decide +kernel), (by decide +kernel)⟩)).1 (by decide +kernel)),
    Completes.runs (((h.1 3 tComp tMeter (tBrl { restarting := true }) (by decide +kernel) (by decide +kernel) (by decide +kernel) (by decide +kernel) (by decide +kernel)).2 (.mgmt true) (Or.inl ⟨_, rfl, (by decide +kernel)⟩)).2 (by decide +kernel)),
    ⟨_, (h.2.1 4 0 0x100 (tBrl { subs := [(0, 9)] }) (by decide +kernel)).1 2 (by decide +kernel) (by decide +kernel)⟩,
    Completes.runs ((h.2.1 4 0 0x101 (tBrl { subs := [(0, 9)] }) (by decide +kernel)).2 (by decide +kernel)),
    Completes.runs (h.2.2.1 (tBrl { subs := [(0, 9)], pushed := [⟨5, 1, [1]⟩, ⟨6, 1, [2]⟩], held := [⟨5, 1, [1]⟩, ⟨6, 1, [2]⟩], journal := [[1], [2], [3]] }) (by decide +kernel) (by decide +kernel)),
    Completes.runs ((h.2.2.2 tM 5 2 (tBrl { subs := [(0, 9)], pushed := [⟨5, 1, [1]⟩, ⟨6, 1, [2]⟩], held := [⟨5, 1, [1]⟩, ⟨6, 1, [2]⟩], journal := [[1], [2], [3]] }) (by decide +kernel) (by decide +kernel) (by decide +kernel)).1),
    Completes.runs ((h.2.2.2 tM 5 2 (tBrl { subs := [(0, 9)], pushed := [⟨5, 1, [1]⟩, ⟨6, 1, [2]⟩], held := [⟨5, 1, [1]⟩, ⟨6, 1, [2]⟩], journal := [[1], [2], [3]] }) (by decide +kernel) (by decide +kernel) (by decide +kernel)).2.1),
    Completes.runs ((h.2.2.2 tM 1 2 (tBrl { subs := [(0, 9)], pushed := [⟨5, 1, [1]⟩, ⟨6, 1, [2]⟩], held := [⟨5, 1, [1]⟩, ⟨6, 1, [2]⟩], journal := [[1], [2], [3]] }) (by decide +kernel) (by decide +kernel) (by decide +kernel)).2.2)⟩

/-- Half W holds the charge, and half E may be healthy; firmware may run. -/
def tChg (believes e : Nat) (up : Bool) : State :=
  { withRegs [(MGT_CHARGE_HOLDER, 1), (MGT_CHARGE_EPOCH, 5), (MGT_CHARGE_W_HEALTHY, 1), (MGT_CHARGE_E_HEALTHY, e), (CLK_STATUS_PLAN, 1), (GLB_PKG_STATUS_PWRGD_MAIN, 1)] tS with mgt := { fwUp := up, believes := believes } }

/-- The new active half takes over while a delta is in a phase. -/
def tTake (resuming : Nat) (p : DeltaPhase) : State := { tChg 0 1 false with mgt := { resuming := resuming }, img := { tS.img with deltaPhase := p } }

theorem test_meets_ChargeAndFirmware (h : Obligations.ChargeAndFirmware) :
    Runs (.chargeHeartbeat false 5) (tChg 1 1 true) ∧
    Runs (.chargeHeartbeat true 5) (tChg 2 1 true) ∧
    Runs .chargeWatchdog (tChg 1 1 true) ∧
    Runs (.failover tM) (tChg 1 1 true) ∧
    Runs .chargeWatchdog (tChg 1 0 true) ∧
    Runs (.failover tM) (tChg 1 0 true) ∧
    Runs (.mgtFwFailover .mgmt 0) (tChg 1 1 true) ∧
    Runs (.fwRestart tM) (tChg 1 1 true) ∧
    Runs (.restartWrite .mgmt 1) (tChg 1 1 true) ∧
    Runs .takeover (tTake 1 .idle) ∧
    Runs .takeover (tTake 2 .idle) ∧
    Runs .takeover (tTake 1 .draining) ∧
    Runs (.onyxFirmwareStart false false true true) (tChg 0 1 false) ∧
    Runs (.onyxFirmwareStart false true true true) (withRegs [(MGT_CHARGE_HOLDER, 0)] (tChg 0 1 false)) ∧
    Runs (.onyxFirmwareStart true true true true) (tChg 0 1 false) ∧
    Runs (.powerOnSelfTest [] false) (tChg 1 1 true) ∧
    Runs (.powerOnSelfTest [] true) (tChg 1 1 true) ∧
    Runs (.powerOnSelfTest [(0, 7)] false) (withRegs [(spVault 0 0, 0xFF), (spVault 0 1, 0xFF)] (tChg 1 1 true)) :=
  ⟨⟨_, (h.1 false 5 (tChg 1 1 true)).1 (by decide +kernel) (by decide +kernel)⟩,
    Completes.runs ((h.1 true 5 (tChg 2 1 true)).2 (by decide +kernel) (by decide +kernel)),
    Completes.runs (((h.2.1 1 (tChg 1 1 true) (by decide +kernel) (by decide +kernel) (by decide +kernel)).1 (by decide +kernel)).1),
    Completes.runs (((h.2.1 1 (tChg 1 1 true) (by decide +kernel) (by decide +kernel) (by decide +kernel)).1 (by decide +kernel)).2.1 tM (by decide +kernel)),
    Completes.runs (((h.2.1 1 (tChg 1 0 true) (by decide +kernel) (by decide +kernel) (by decide +kernel)).2.1 (by decide +kernel)).1),
    Completes.runs (((h.2.1 1 (tChg 1 0 true) (by decide +kernel) (by decide +kernel) (by decide +kernel)).2.1 (by decide +kernel)).2 tM (by decide +kernel)),
    Completes.runs (((h.2.1 1 (tChg 1 1 true) (by decide +kernel) (by decide +kernel) (by decide +kernel)).1 (by decide +kernel)).2.2 .mgmt 0 (by decide +kernel) (by decide +kernel) (by decide +kernel)),
    Completes.runs ((h.2.1 1 (tChg 1 1 true) (by decide +kernel) (by decide +kernel) (by decide +kernel)).2.2.1 tM (by decide +kernel)),
    Completes.runs ((h.2.1 1 (tChg 1 1 true) (by decide +kernel) (by decide +kernel) (by decide +kernel)).2.2.2 .mgmt 1 (by decide +kernel) (by decide +kernel) (by decide +kernel)),
    Completes.runs ((h.2.2.1 (tTake 1 .idle) (by decide +kernel) (by decide +kernel)).1 (by decide +kernel) (1, 3, 0x0062) (by decide +kernel) (by decide +kernel)),
    Completes.runs ((h.2.2.1 (tTake 2 .idle) (by decide +kernel) (by decide +kernel)).1 (by decide +kernel) (2, 2, 0x0061) (by decide +kernel) (by decide +kernel)),
    Completes.runs ((h.2.2.1 (tTake 1 .draining) (by decide +kernel) (by decide +kernel)).2 (by decide +kernel) (by decide +kernel) (by decide +kernel)),
    Completes.runs ((h.2.2.2.1 false false true true (tChg 0 1 false) (by decide +kernel) (by decide +kernel) (by decide +kernel) (by decide +kernel)).1 (by decide +kernel) (by decide +kernel)),
    Completes.runs ((h.2.2.2.1 false true true true (withRegs [(MGT_CHARGE_HOLDER, 0)] (tChg 0 1 false)) (by decide +kernel) (by decide +kernel) (by decide +kernel) (by decide +kernel)).2.1 (by decide +kernel) (by decide +kernel)),
    Completes.runs ((h.2.2.2.1 true true true true (tChg 0 1 false) (by decide +kernel) (by decide +kernel) (by decide +kernel) (by decide +kernel)).2.2 1 (by decide +kernel) (by decide +kernel)),
    Completes.runs ((h.2.2.2.2 (tChg 1 1 true) (by decide +kernel) (by decide +kernel) (by decide +kernel) (by decide +kernel)).1),
    Completes.runs ((h.2.2.2.2 (tChg 1 1 true) (by decide +kernel) (by decide +kernel) (by decide +kernel) (by decide +kernel)).2.1),
    Completes.runs ((h.2.2.2.2 (withRegs [(spVault 0 0, 0xFF), (spVault 0 1, 0xFF)] (tChg 1 1 true)) (by decide +kernel) (by decide +kernel) (by decide +kernel) (by decide +kernel)).2.2 0 7 0 (by decide +kernel) (by decide +kernel) (by decide +kernel) (by decide +kernel) (by decide +kernel) (by decide +kernel) (by decide +kernel))⟩

/-- Management with a subscriber and two events queued. -/
def tMgt (g : MgtS) : State :=
  { tS with mgt := { g with fwUp := true, subs := [(0, 9)], events := [⟨5, 0x20, 1, 1, 0, 0, 0, 0⟩, ⟨6, 0x21, 1, 1, 0, 0, 0, 0⟩] } }

theorem test_meets_ManagementServices (h : Obligations.ManagementServices) :
    Runs (.eventSubscribe tM false 8 1) (tMgt {}) ∧
    Runs (.eventSubscribe tM true 8 1) (tMgt {}) ∧
    Runs (.eventRead tM 6 4) (tMgt {}) ∧
    Runs (.eventRead tM 6 40) (tMgt {}) ∧
    Runs (.eventAck tM 5) (tMgt {}) ∧
    Runs (.lrRead tM 16 4) (tMgt {}) ∧
    Runs (.lrRead tM 16 1025) (tMgt {}) ∧
    Runs (.marginSweep tM 3) (tMgt {}) ∧
    Runs (.marginSweep tM 3) (tMgt { sweep := some {} }) ∧
    Runs .marginPeriod (withRegs [(MGT_FW_MARGIN_PERIOD_D, 7)] (tMgt {})) ∧
    Runs (.marginSlot [(2, true)]) ({ tS with mgt := { fwUp := true, sweep := some { todo := [], now := [(2, 3)] } } }) ∧
    Runs (.marginSlot [(2, false)]) ({ tS with mgt := { fwUp := true, sweep := some { todo := [], now := [(2, 3)] } } }) ∧
    Runs (.marginSlot [(2, false)]) ({ tS with mgt := { fwUp := true, sweep := some { todo := [], now := [(2, 0)] } } }) ∧
    Runs (.marginSlot [(2, true)]) ({ tS with mgt := { fwUp := true, sweep := some { todo := [], now := [(2, 12)] } } }) ∧
    Runs .eventPushRetry (tMgt {}) ∧
    Runs .stickySample (tMgt {}) ∧
    Runs .stickySample (withRegs [(DIR_STATUS_UNEXPECTED_STK, 1), (RAS_STATUS_CFG_FIX_STK, 1)] (tMgt {})) ∧
    Runs (.mctpControl false 0 []) (tMgt {}) ∧
    Runs (.mctpControl true 5 []) (tMgt {}) ∧
    Runs (.mctpControl true 9 [1]) (tMgt {}) ∧
    Runs (.pldmMonitoring [1, 2]) (tMgt {}) ∧
    Runs (.pldmFirmwareUpdate 0 [7]) (tMgt {}) ∧
    Runs (.pldmFirmwareUpdate 1 [7]) (tMgt {}) ∧
    Runs (.pldmFirmwareUpdate 2 [7]) (tMgt {}) ∧
    Runs (.pldmFirmwareUpdate 3 [7]) (tMgt {}) ∧
    Runs (.summaryWrite 60 50 40) (tMgt {}) ∧
    Runs (.mirrorSync true) (tMgt {}) ∧
    Runs (.mirrorSync false) (tMgt {}) :=
  ⟨Completes.runs (((h.1 tM (tMgt {}) (by decide +kernel)).1 8 1 (by decide +kernel)).1),
    Completes.runs (((h.1 tM (tMgt {}) (by decide +kernel)).1 8 1 (by decide +kernel)).2),
    Completes.runs ((h.1 tM (tMgt {}) (by decide +kernel)).2.1 6 4),
    Completes.runs ((h.1 tM (tMgt {}) (by decide +kernel)).2.1 6 40),
    Completes.runs ((h.1 tM (tMgt {}) (by decide +kernel)).2.2.1 5),
    Completes.runs ((h.1 tM (tMgt {}) (by decide +kernel)).2.2.2.1 16 4),
    Completes.runs ((h.1 tM (tMgt {}) (by decide +kernel)).2.2.2.1 16 1025),
    Completes.runs (((h.1 tM (tMgt {}) (by decide +kernel)).2.2.2.2 3).2 (by decide +kernel) ⟨0, (by decide +kernel), (by decide +kernel), (by decide +kernel)⟩),
    Completes.runs (((h.1 tM (tMgt { sweep := some {} }) (by decide +kernel)).2.2.2.2 3).1 (by decide +kernel)),
    Completes.runs (h.2.1 (withRegs [(MGT_FW_MARGIN_PERIOD_D, 7)] (tMgt {})) (by decide +kernel) (by decide +kernel) (by decide +kernel) ⟨0, (by decide +kernel), (by decide +kernel)⟩),
    Completes.runs (h.2.2.1 2 3 true { tS with mgt := { fwUp := true, sweep := some { todo := [], now := [(2, 3)] } } } (by decide +kernel) (by decide +kernel) (by decide +kernel) (by decide +kernel)),
    Completes.runs (h.2.2.1 2 3 false { tS with mgt := { fwUp := true, sweep := some { todo := [], now := [(2, 3)] } } } (by decide +kernel) (by decide +kernel) (by decide +kernel) (by decide +kernel)),
    Completes.runs (h.2.2.1 2 0 false { tS with mgt := { fwUp := true, sweep := some { todo := [], now := [(2, 0)] } } } (by decide +kernel) (by decide +kernel) (by decide +kernel) (by decide +kernel)),
    Completes.runs (h.2.2.1 2 12 true { tS with mgt := { fwUp := true, sweep := some { todo := [], now := [(2, 12)] } } } (by decide +kernel) (by decide +kernel) (by decide +kernel) (by decide +kernel)),
    Completes.runs ((h.2.2.2.1 (tMgt {}) (by decide +kernel)).1),
    Completes.runs (((h.2.2.2.1 (tMgt {}) (by decide +kernel)).2.1).1 (by decide +kernel)),
    Completes.runs (((h.2.2.2.1 (withRegs [(DIR_STATUS_UNEXPECTED_STK, 1), (RAS_STATUS_CFG_FIX_STK, 1)] (tMgt {})) (by decide +kernel)).2.1).2 RAS_STATUS_CFG_FIX_STK.key (by decide +kernel)),
    Completes.runs ((h.2.2.2.1 (tMgt {}) (by decide +kernel)).2.2.1 false 0 []),
    Completes.runs ((h.2.2.2.1 (tMgt {}) (by decide +kernel)).2.2.1 true 5 []),
    Completes.runs ((h.2.2.2.1 (tMgt {}) (by decide +kernel)).2.2.1 true 9 [1]),
    Completes.runs ((h.2.2.2.1 (tMgt {}) (by decide +kernel)).2.2.2.1 [1, 2]),
    Completes.runs (((h.2.2.2.1 (tMgt {}) (by decide +kernel)).2.2.2.2 [7] (by decide +kernel)).1),
    Completes.runs (((h.2.2.2.1 (tMgt {}) (by decide +kernel)).2.2.2.2 [7] (by decide +kernel)).2.1),
    Completes.runs (((h.2.2.2.1 (tMgt {}) (by decide +kernel)).2.2.2.2 [7] (by decide +kernel)).2.2.1),
    Completes.runs (((h.2.2.2.1 (tMgt {}) (by decide +kernel)).2.2.2.2 [7] (by decide +kernel)).2.2.2),
    Completes.runs (h.2.2.2.2.1 60 50 40 (tMgt {})),
    Completes.runs ((h.2.2.2.2.2 (tMgt {})).1),
    Completes.runs ((h.2.2.2.2.2 (tMgt {})).2)⟩

/-- A HELLO packet of node 5 of a kind; the candidate it names has STRAP_ID 3 and NODE_ID 6; its pool epoch. -/
def tHello (kind epoch : Nat) : Hdr := { tHdr 0x80 0 with cmpId := 0, pa := BitVec.ofNat 56 (kind + 3 * 2 ^ 8 + 6 * 2 ^ 18 + 2 ^ 30 + epoch * 2 ^ 32) }

/-- A Slosin that may be master of a pool, with one fabric port up. -/
def tForm (size : Nat) (e : Election) : State :=
  { withRegs [(GLB_PKG_STATUS_STRAP_ID, 20), (GLB_PKG_STATUS_STRAP_MCAP, 1), (FAB_FORM_PHASE, 1)] tRoute with img := { configured := true, poolSize := size, masterCapable := true, ports := List.replicate 24 [3, 0, 0, 4, 0], neighbours := List.replicate 24 (5, 9) }, mgt := { fwUp := true, postOk := true, election := e }, mem := { tS.mem with allotted := true } }

/-- The master of a formed pool. -/
def tJoin : State := withRegs [(FAB_NODE_MASTER, 1), (FAB_NODE_JOINED, 1)] (tForm 2 {})

theorem tJoin_peers (d : Nat) (h : d < 4096) : fget (peerIncFld d) tJoin = 0 := by
  have e : ∀ x ∈ tJoin.regs, x.1 < 34078720 ∨ 34603008 ≤ x.1 := by decide +kernel
  have k : 34078720 ≤ (peerIncFld d).key ∧ (peerIncFld d).key < 34603008 ∧ (peerIncFld d).reset = 0 := by
    unfold peerIncFld
    split <;> simp [FAB_PEER_INC_INC0, FAB_PEER_INC_INC1, FAB_PEER_INC_INC2, FAB_PEER_INC_INC3] <;> omega
  rw [fget, kgetD, kget?_eq_none (fun x hx => by have := e x hx; omega), k.2.2]; rfl

theorem test_meets_PoolFormation (h : Obligations.PoolFormation) :
    Runs (.elect 4 (tHello 1 0)) (tForm 2 {}) ∧
    Runs (.elect 4 (tHello 1 0)) (tForm 2 { best := some ⟨2, 7⟩ }) ∧
    Runs (.elect 4 (tHello 1 0)) (withRegs [(GLB_PKG_STATUS_STRAP_ID, 3)] (tForm 2 { best := some ⟨2, 7⟩ })) ∧
    Runs (.elect 4 (tHello 1 8)) (tForm 2 {}) ∧
    Runs (.elect 4 ({ tHdr 0x80 0 with cmpId := 0, pa := 1 })) (withRegs [(FAB_NODE_JOINED, 1)] (tForm 2 {})) ∧
    Runs (.electionConcluded true) (tForm 2 { best := some ⟨20, 0⟩, heard := 9 }) ∧
    Runs (.electionConcluded true) (tForm 1 { best := some ⟨20, 0⟩ }) ∧
    Runs (.probe 4 (tHello 2 8)) (withRegs [(FAB_NODE_JOINED, 1)] (tForm 2 {})) ∧
    Runs (.probe 4 (tHello 2 8)) (tForm 2 {}) ∧
    Runs (.discoveryEnd [] true) (withRegs [(FAB_NODE_MASTER, 1), (FAB_FORM_PHASE, 2)] (tForm 3 { reports := [(10, (1, 0, [])), (11, (0, 0, []))] })) ∧
    Runs (.formed 4 (tHello 4 8) true) (withRegs [(FAB_NODE_JOINED, 1)] (tForm 2 {})) ∧
    Runs (.formed 4 (tHello 4 8) true) (tForm 2 {}) ∧
    Runs (.formed 4 (tHello 4 8) true) (withRegs [(FAB_NODE_INCARNATION, 3)] (tForm 2 {})) ∧
    Runs .formTimeout (withRegs [(FAB_NODE_JOINED, 1)] (tForm 2 {})) ∧
    Runs .formTimeout (tForm 2 {}) ∧
    Runs .electResend (withRegs [(FAB_FORM_PHASE, 5)] (tForm 2 {})) ∧
    Runs .electResend (tForm 2 {}) ∧
    Runs (.joinReq 4 (tHello 3 8) []) tJoin :=
  ⟨Completes.runs (((h.1 4 (tHello 1 0) (tForm 2 {}) (by decide +kernel)).1 ⟨3, 6⟩ (by decide +kernel) (by decide +kernel)).1 (by decide +kernel) (by decide +kernel) (by decide +kernel)),
    Completes.runs ((((h.1 4 (tHello 1 0) (tForm 2 { best := some ⟨2, 7⟩ }) (by decide +kernel)).1 ⟨3, 6⟩ (by decide +kernel) (by decide +kernel)).2.1 (by decide +kernel) (by decide +kernel)).1 (by decide +kernel)),
    Completes.runs ((((h.1 4 (tHello 1 0) (withRegs [(GLB_PKG_STATUS_STRAP_ID, 3)] (tForm 2 { best := some ⟨2, 7⟩ })) (by decide +kernel)).1 ⟨3, 6⟩ (by decide +kernel) (by decide +kernel)).2.1 (by decide +kernel) (by decide +kernel)).2 (by decide +kernel) (by decide +kernel)),
    Completes.runs (((h.1 4 (tHello 1 8) (tForm 2 {}) (by decide +kernel)).1 ⟨3, 6⟩ (by decide +kernel) (by decide +kernel)).2.2 (by decide +kernel) (by decide +kernel) (by decide +kernel) (by decide +kernel)),
    Completes.runs ((h.1 4 ({ tHdr 0x80 0 with cmpId := 0, pa := 1 }) (withRegs [(FAB_NODE_JOINED, 1)] (tForm 2 {})) (by decide +kernel)).2 (by decide +kernel) (by decide +kernel)),
    Completes.runs ((h.2.1 true (tForm 2 { best := some ⟨20, 0⟩, heard := 9 }) (by decide +kernel) (by decide +kernel) (by decide +kernel) (by decide +kernel) (by decide +kernel) (by decide +kernel)).1 (by decide +kernel)),
    Completes.runs ((h.2.1 true (tForm 1 { best := some ⟨20, 0⟩ }) (by decide +kernel) (by decide +kernel) (by decide +kernel) (by decide +kernel) (by decide +kernel) (by decide +kernel)).2 (by decide +kernel) (by decide +kernel)),
    Completes.runs ((h.2.2.1 4 (tHello 2 8) ⟨3, 6⟩ (withRegs [(FAB_NODE_JOINED, 1)] (tForm 2 {})) (by decide +kernel) (by decide +kernel)).1 (by decide +kernel)),
    Completes.runs ((h.2.2.1 4 (tHello 2 8) ⟨3, 6⟩ (tForm 2 {}) (by decide +kernel) (by decide +kernel)).2 (by decide +kernel) (by decide +kernel) (by decide +kernel) (by decide +kernel) (by decide +kernel) (by decide +kernel) (by decide +kernel) (by decide +kernel) (by decide +kernel)),
    Completes.runs (h.2.2.2.1 true 5 (withRegs [(FAB_NODE_MASTER, 1), (FAB_FORM_PHASE, 2)] (tForm 3 { reports := [(10, (1, 0, [])), (11, (0, 0, []))] })) (by decide +kernel) (by decide +kernel) (by decide +kernel) (by decide +kernel) (by decide +kernel) (by decide +kernel) (by decide +kernel) (by decide +kernel)),
    Completes.runs ((h.2.2.2.2.1 4 (tHello 4 8) true ⟨3, 6⟩ (withRegs [(FAB_NODE_JOINED, 1)] (tForm 2 {})) (by decide +kernel) (by decide +kernel)).1 (by decide +kernel)),
    Completes.runs ((h.2.2.2.2.1 4 (tHello 4 8) true ⟨3, 6⟩ (tForm 2 {}) (by decide +kernel) (by decide +kernel)).2.1 (by decide +kernel) (by decide +kernel) (by decide +kernel)),
    Completes.runs ((h.2.2.2.2.1 4 (tHello 4 8) true ⟨3, 6⟩ (withRegs [(FAB_NODE_INCARNATION, 3)] (tForm 2 {})) (by decide +kernel) (by decide +kernel)).2.2 (by decide +kernel) (by decide +kernel) (by decide +kernel)),
    Completes.runs ((h.2.2.2.2.2.1 (withRegs [(FAB_NODE_JOINED, 1)] (tForm 2 {}))).1 (by decide +kernel)),
    Completes.runs ((h.2.2.2.2.2.1 (tForm 2 {})).2.1 (by decide +kernel) (by decide +kernel) (by decide +kernel)),
    Completes.runs ((h.2.2.2.2.2.1 (withRegs [(FAB_FORM_PHASE, 5)] (tForm 2 {}))).2.2.1 4 (by decide +kernel) (by decide +kernel)),
    Completes.runs ((h.2.2.2.2.2.1 (tForm 2 {})).2.2.2 (by decide +kernel)),
    Completes.runs (h.2.2.2.2.2.2 4 (tHello 3 8) 4 tJoin (by decide +kernel) (by decide +kernel) (by decide +kernel) (by decide +kernel) (by decide +kernel) (fun d hd _ _ => tJoin_peers d hd) (by decide +kernel) (by decide +kernel) (by decide +kernel))⟩

theorem test_meets_FlitsReadBack (h : Obligations.FlitsReadBack) : takePkts 16 (flitSlots (mkFlit 5 6 1 0 (pktSlots (tPkt 9)))) = ([tPkt 9], []) :=
  (h (tPkt 9) 5 6 0 (by decide) (by decide) (by decide)).2.2.2.2.2

/-- A composition with one frame that waits for its retention assertion; its key is held. -/
def tRet (m : MgtS) : State :=
  let c : Comp := { tComp with near := [7], nearBytes := 2097152 }
  { tForm 2 {} with comps := [tComp], img := { (tForm 2 {}).img with waiting := [{ c with cmpId := 8, slot := 4 }], kept := [{ c with cmpId := 8, slot := 4 }] }, sec := { keys := [(1, ⟨8, 77, true⟩)] }, mgt := { m with fwUp := true } }

/-- See `tRet`. -/
def tWait : Comp := { tComp with near := [7], nearBytes := 2097152, cmpId := 8, slot := 4 }

theorem tRet_digest (m : MgtS) : capacityDigest tWait (tRet m) = capacityDigest tWait (tRet {}) := rfl

/-- An assertion of what the frame holds. -/
def tAss : Nat × List Byte := (2, capacityDigest tWait (tRet {}))

/-- The state with an assertion whose hash runs. -/
def tHash (a : Nat × List Byte) : State := tRet { asserts := [(8, a)], hashing := [(4, ())] }

theorem tAss_digest : tAss.2 = capacityDigest tWait (tHash tAss) := by
  unfold tHash
  rw [tRet_digest]
  unfold tAss
  dsimp only

theorem tHash_asserts (a : Nat × List Byte) : kget? (tHash a).mgt.asserts tWait.cmpId = some a := rfl

/-- Its seal. -/
def tSeal : Seal := { keySlot := 1, incarnation := 2, expanders := [], nearBytes := 2097152, farBytes := 0, digest := [9] }

/-- An expander that waits for its assertion. -/
def tExpander : State :=
  { (withRegs [(FAB_NODE_JOINED, 1)] tS) with mem := { (withRegs [(FAB_NODE_JOINED, 1)] tS).mem with expanders := [⟨3, 2 ^ 40, false, 4, true, false⟩], allotted := true }, mgt := { fwUp := true, seals := [(8, { tSeal with expanders := [(3, 3)] })] } }

theorem test_meets_PoolStateAndRetention (h : Obligations.PoolStateAndRetention) :
    Runs (.stateCopy false) (tForm 2 {}) ∧
    Runs (.stateCopy true) (tForm 2 {}) ∧
    Runs (.stateCopy true) (withRegs [(FAB_NODE_MASTER, 1), (FAB_NODE_JOINED, 1), (FAB_FORM_STANDBY_NODE, 5)] (tForm 2 {})) ∧
    Runs .standbyMasterTakeover (withRegs [(FAB_NODE_JOINED, 1), (FAB_NODE_STANDBY, 1), (FAB_FORM_MASTER_NODE, 5)] { tForm 2 {} with comps := [] }) ∧
    Runs (.retainSeal tM 7) tS ∧
    Runs (.retainSeal tM 8) tS ∧
    Runs (.sealHashDone 7) ({ tS with comps := [{ tComp with near := [] }], mgt := { fwUp := true, sealing := [{ cmpId := 7, tag := 4, dirty := false }] } }) ∧
    Runs (.sealHashDone 7) ({ tS with comps := [{ tComp with near := [] }], mgt := { fwUp := true, sealing := [{ cmpId := 7, tag := 4, dirty := true }] } }) ∧
    Runs (.retainAssert tM 9 2 [9]) (tRet { seals := [(8, tSeal)] }) ∧
    Runs (.retainAssert tM 8 2 [9]) (tRet { seals := [(8, tSeal)] }) ∧
    Runs (.retainAssert tM 8 2 [9]) (tRet {}) ∧
    Runs (.retainAssert tM 8 2 [9]) (withRegs [(FAB_NODE_JOINED, 1)] (tRet { seals := [(8, tSeal)] })) ∧
    Runs (.retainAssert tM 8 3 [9]) tExpander ∧
    Runs (.retainHashDone 4 true) (tHash tAss) ∧
    Runs (.retainHashDone 4 true) (tHash (2, [])) :=
  ⟨Completes.runs ((h.1 (tForm 2 {})).1),
    Completes.runs (((h.1 (tForm 2 {})).2 (by decide +kernel)).1 (by decide +kernel)),
    Completes.runs (((h.1 (withRegs [(FAB_NODE_MASTER, 1), (FAB_NODE_JOINED, 1), (FAB_FORM_STANDBY_NODE, 5)] (tForm 2 {}))).2 (by decide +kernel)).2 (by decide +kernel) (by decide +kernel) (by decide +kernel) 4 (by decide +kernel)),
    Completes.runs (h.2.1 (withRegs [(FAB_NODE_JOINED, 1), (FAB_NODE_STANDBY, 1), (FAB_FORM_MASTER_NODE, 5)] { tForm 2 {} with comps := [] }) (by decide +kernel) (by decide +kernel) (by decide +kernel) (by decide +kernel) (by decide +kernel) (by decide +kernel) (by decide +kernel) (by decide +kernel) (by decide +kernel)),
    Completes.runs (h.2.2.1 tM 7 tS (by decide +kernel)),
    Completes.runs (h.2.2.1 tM 8 tS (by decide +kernel)),
    Completes.runs (h.2.2.2.1 7 { cmpId := 7, tag := 4, dirty := false } { tComp with near := [] } { tS with comps := [{ tComp with near := [] }], mgt := { fwUp := true, sealing := [{ cmpId := 7, tag := 4, dirty := false }] } } (by decide +kernel) (by decide +kernel)),
    Completes.runs (h.2.2.2.1 7 { cmpId := 7, tag := 4, dirty := true } { tComp with near := [] } { tS with comps := [{ tComp with near := [] }], mgt := { fwUp := true, sealing := [{ cmpId := 7, tag := 4, dirty := true }] } } (by decide +kernel) (by decide +kernel)),
    Completes.runs (((h.2.2.2.2.1 tM 9 2 [9] (tRet { seals := [(8, tSeal)] }) (by decide +kernel)).1 (by decide +kernel) (by decide +kernel)).1 (by decide +kernel)),
    Completes.runs (((h.2.2.2.2.1 tM 8 2 [9] (tRet { seals := [(8, tSeal)] }) (by decide +kernel)).1 (by decide +kernel) (by decide +kernel)).2 tWait (by decide +kernel) (by decide +kernel) (by decide +kernel) (by decide +kernel)),
    Completes.runs (((h.2.2.2.2.1 tM 8 2 [9] (tRet {}) (by decide +kernel)).1 (by decide +kernel) (by decide +kernel)).2 tWait (by decide +kernel) (by decide +kernel) (by decide +kernel) (by decide +kernel)),
    Completes.runs ((h.2.2.2.2.1 tM 8 2 [9] (withRegs [(FAB_NODE_JOINED, 1)] (tRet { seals := [(8, tSeal)] })) (by decide +kernel)).2.1 (by decide +kernel) (by decide +kernel)),
    Completes.runs ((h.2.2.2.2.1 tM 8 3 [9] tExpander (by decide +kernel)).2.2 3 (by decide +kernel) (by decide +kernel) (by decide +kernel)),
    Completes.runs ((h.2.2.2.2.2 4 true tWait tAss (tHash tAss) (by decide +kernel) (by decide +kernel) (tHash_asserts _) (by decide +kernel) (by decide +kernel)).1 tAss_digest),
    Completes.runs ((h.2.2.2.2.2 4 true tWait (2, []) (tHash (2, [])) (by decide +kernel) (by decide +kernel) (tHash_asserts _) (by decide +kernel) (by decide +kernel)).2 (by decide +kernel))⟩

theorem test_meets_EmptyQueueIdles (h : Obligations.EmptyQueueIdles) : step State.reset = .next State.reset := h _ rfl

theorem test_meets_StepsKeepWellFormed (h : Obligations.StepsKeepWellFormed) (t : State)
    (ht : step { tS with pending := [.perstRelease 0] } = .next t) : t.wf := by
  exact h { tS with pending := [.perstRelease 0] } t ⟨by decide +kernel, by decide +kernel⟩ ht

theorem test_step_completes : ∃ t, step { tS with pending := [.perstRelease 0] } = .next t := ⟨_, rfl⟩

/-! ### What WellFormed refuses -/

/-- A wide access that is not aligned, a narrow one that is not, a narrow one with more than 32 bits (R9). -/
theorem test_refused_access :
    (Instr.registerWrite .mgmt ⟨4, true, 0⟩).wf = false ∧ (Instr.registerWrite .mgmt ⟨2, false, 0⟩).wf = false
    ∧ (Instr.registerWrite .mgmt ⟨4, false, 0x100000000⟩).wf = false ∧ (Instr.registerWrite .mgmt ⟨4, false, 0xFFFFFFFF⟩).wf = true := by
  decide

/-- A line's address that is none (R26), in a tile's access, a message and a host's request (R27). -/
theorem test_refused_line :
    (Instr.cacheLoad (.tile 0) 3 8).wf = false ∧ (Instr.rdS { via := .tile 2, slot := 3, pa := 1 }).wf = false
    ∧ (Instr.memRdData { port := 0, biId := 0, hpa := 32 }).wf = false ∧ (Instr.memRdData { port := 0, biId := 0, hpa := 64 }).wf = true := by
  decide

/-- A packet of no slots, of 19 slots, on a sixth virtual channel, with a body of another length (R153). -/
theorem test_refused_packet :
    (Instr.bulkRd { pktLen := 0 }).wf = false ∧ (Instr.bulkRd { pktLen := 19 }).wf = false ∧ (Instr.bulkRd { pktLen := 1, vc := 5 }).wf = false
    ∧ (Instr.bulkWr ⟨{ pktLen := 5 }, []⟩).wf = false ∧ (Instr.bulkWr ⟨{ pktLen := 7 }, lineSlots 0⟩).wf = false
    ∧ (Instr.bulkWr ⟨{ pktLen := 6 }, lineSlots 0⟩).wf = true := by
  decide

/-! ### Examples of the spec -/

/-- Example 3.1: the home and the local address of a pool address. -/
theorem test_example_3_1 :
    splitPa { tComp with members := [0x12, 0x13, 0x20, 0x21], spanBytes := 6 * 2 ^ 40 } 0x30140012340 = some (2, 5 * 2 ^ 30 + 0x12340)
    ∧ vaultOf (41000 * 2097152 + 74560) = 291 := by
  decide +kernel

/-- Example 10.1: binary32 0.1 written as bfloat16 to nearest, towards zero and stochastically. -/
theorem test_example_10_1 :
    (writeElem 3 0 0 0x3DCCCCCD).1 = 0x3DCD ∧ (writeElem 3 1 0 0x3DCCCCCD).1 = 0x3DCC
    ∧ (writeElem 3 2 0x20000000 0x3DCCCCCD).1 = 0x3DCC ∧ (writeElem 3 2 0x40000000 0x3DCCCCCD).1 = 0x3DCD := by
  decide +kernel

/-- Example 10.3: the exact sum in either order, and its windowed form. -/
theorem test_example_10_3 :
    let sum := fun l : List Nat => l.foldl (fun x t => accTerm t false x) ({} : Accum)
    accWin (sum [0x4B800000, 0x3F800000, 0xCB800000]) = some 0x00000000030095000000000000000001
    ∧ (accDeliver 1 0 0 (sum [0x4B800000, 0xCB800000, 0x3F800000])).1 = 0x3F800000 := by
  decide +kernel

/-- Example 11.2: member 3's partial, and the merged sum delivered as bfloat16. -/
theorem test_example_11_2 :
    accWin (accTerm 0x3A000000 false (accTerm 0xBB800000 false {})) = some 0x0000000002008AFFFFFFFFFFFFFFFFF9
    ∧ (accDeliver 3 0 0 ([0x3D800000, 0x3D000000, 0xBC000000, 0x3CA00000, 0x3CC00000, 0x3B000000, 0xBB800000, 0x3A000000].foldl
        (fun x t => accTerm t false x) ({} : Accum))).1 = 0x3E02 := by
  decide +kernel

/-- Example 21.1: three declarations of civil time. -/
theorem test_example_21_1 :
    civilCheck 2100 2 29 12 0 0 0 = 3 ∧ civilCheck 2100 2 28 23 59 58 0 = 0 ∧ civilCheck 2000 2 29 0 0 0 0 = 0 ∧ civilCheck 2101 1 1 24 0 0 0 = 4
    ∧ civilMs 2100 2 28 23 59 58 0 + 2000 = civilMs 2100 3 1 0 0 0 0 := by
  decide +kernel

/-- Example 24.1: where registers lie. -/
theorem test_example_24_1 :
    (CMP_JOB_CTL_JOB 9).key / 8 = 0x109080 ∧ (ENG_STALL_CNT 4 6).key / 8 = 0x640130 ∧ (PRT_LANE_EVENT_LANE 7).key / 8 = 0x51C090 ∧ (TIL_ADOPT_SELFTEST 14).key / 8 = 0x738108 := by
  decide
end

section
/-! The rules of register accesses: what a count changes, how the register table is laid out, and what a write does to each
field of a register (R9 to R13). -/

namespace Sys2Proof.Machine

/-! ### Counters (R13) -/

theorem finc_counted (f : Fld) (s : State) : Counted f 1 s (finc f s) := by
  have hlt : min (fget f s + 1) (2 ^ f.width - 1) < 2 ^ f.width := by
    have := Nat.two_pow_pos f.width
    omega
  exact fget_fset_of_lt s hlt

theorem fget_finc_ne {f g : Fld} (s : State) (h : f.key ≠ g.key) : fget f (finc g s) = fget f s := fget_fset_ne _ _ h

theorem finc_regsBut (f : Fld) (s : State) : RegsBut [f] s (finc f s) := fun _ h => fget_finc_ne s (h f (by simp))

theorem finc_sameBut (f : Fld) (s : State) : SameBut [.regs] s (finc f s) := rfl

/-- A counted event changes its counter alone. -/
theorem finc_only_counts (f : Fld) (s : State) :
    Counted f 1 s (finc f s) ∧ RegsBut [f] s (finc f s) ∧ SameBut [.regs] s (finc f s) :=
  ⟨finc_counted f s, finc_regsBut f s, finc_sameBut f s⟩

/-! ### The layout of the register table -/

/-- The address of the register with given indices in an array: each index counts its stride. -/
def addrFrom (base : Nat) : List (Nat × Nat) → (Nat → Nat) → Nat
  | [], _ => base
  | (stride, _) :: r, i => addrFrom (base + stride * i 0) r (fun k => i (k + 1))

/-- The address of the register with given indices in the array that `d` describes. -/
def RegDef.addr (d : RegDef) (i : Nat → Nat) : Nat := addrFrom d.base d.dims i

/-- The keys of the fields of the register with given indices. -/
def RegDef.keys (d : RegDef) (i : Nat → Nat) : List Nat := (d.flds i).map (fun x => x.1.key)

/-- The lowest bits of the fields inside a register of the array. -/
def RegDef.offsets (d : RegDef) : List Nat := (d.keys (fun _ => 0)).map (· - 8 * d.base)

theorem addrFrom_of_indices {dims : List (Nat × Nat)} {base off : Nat} {l : List Nat} (h : indices dims off = some l) :
    addrFrom base dims (fun k => l.getD k 0) = base + off := by
  induction dims generalizing base off l with
  | nil =>
    cases off with
    | zero => rfl
    | succ n => simp [indices] at h
  | cons e r ih =>
    obtain ⟨stride, count⟩ := e
    rw [indices] at h
    split at h
    · obtain ⟨l', hl', rfl⟩ := Option.map_eq_some_iff.1 h
      calc addrFrom base ((stride, count) :: r) (fun k => (off / stride :: l').getD k 0)
          = addrFrom (base + stride * (off / stride)) r (fun k => l'.getD k 0) := rfl
        _ = base + stride * (off / stride) + off % stride := ih hl'
        _ = base + off := by rw [Nat.add_assoc, Nat.div_add_mod]
    · cases h

theorem fieldsIn_eq_some {d : RegDef} {addr : Nat} {fs : List (Fld × Access)} (h : fieldsIn d addr = some fs) :
    ∃ i, d.addr i = addr ∧ d.flds i = fs := by
  unfold fieldsIn at h
  split at h
  · cases h
  · obtain ⟨l, hl, rfl⟩ := Option.map_eq_some_iff.1 h
    exact ⟨_, (addrFrom_of_indices hl).trans (by omega), rfl⟩

/-- In every register of an array the fields lie at the same bits. -/
theorem regTable_keys : ∀ d ∈ regTable, d.keys = fun i => d.offsets.map (8 * d.addr i + ·) :=
  List.map_inj_left.1 (show regTable.map RegDef.keys = regTable.map (fun d i => d.offsets.map (8 * d.addr i + ·)) from rfl)

/-- The fields of a register are listed from its lowest bit up, and lie inside its 64 bits. -/
theorem regTable_offsets : ∀ d ∈ regTable, d.offsets.Pairwise (· < ·) ∧ ∀ o ∈ d.offsets, o < 64 := by decide +kernel

/-- The keys of the fields of the register at an address rise strictly from 8 times the address, by less than 64. -/
theorem regAt_keys {addr : Nat} {fs : List (Fld × Access)} (h : regAt addr = some fs) :
    ∃ los : List Nat, fs.map (fun x => x.1.key) = los.map (8 * addr + ·) ∧ los.Pairwise (· < ·) ∧ ∀ o ∈ los, o < 64 := by
  obtain ⟨d, hd, hfs⟩ := List.exists_of_findSome?_eq_some h
  obtain ⟨i, rfl, rfl⟩ := fieldsIn_eq_some hfs
  exact ⟨d.offsets, congrFun (regTable_keys d hd) i, regTable_offsets d hd⟩

/-- A field of the register at an aligned address lies in that register. -/
theorem reg_of_mem_regAt {reg : Nat} {fs : List (Fld × Access)} (h : regAt reg = some fs) (h8 : reg % 8 = 0)
    {x : Fld × Access} (hx : x ∈ fs) : x.1.key / 64 * 8 = reg := by
  obtain ⟨los, hkeys, -, hlt⟩ := regAt_keys h
  have hmem : x.1.key ∈ los.map (8 * reg + ·) := hkeys ▸ List.mem_map_of_mem hx
  obtain ⟨o, ho, hkey⟩ := List.mem_map.1 hmem
  have := hlt o ho
  omega

theorem regAt_keys_ne {reg : Nat} {fs : List (Fld × Access)} (h : regAt reg = some fs) :
    fs.Pairwise (fun x y => x.1.key ≠ y.1.key) := by
  obtain ⟨los, hkeys, hlos, -⟩ := regAt_keys h
  have hlt : (los.map (8 * reg + ·)).Pairwise (· < ·) := List.pairwise_map.2 (hlos.imp (Nat.add_lt_add_left · _))
  rw [← hkeys] at hlt
  exact (List.pairwise_map.1 hlt).imp Nat.ne_of_lt

/-! ### One field of a write -/

theorem mergeFld_lt (w : RWr) (f : Fld) (s : State) : mergeFld w f s < 2 ^ f.width := Nat.mod_lt _ (Nat.two_pow_pos _)

theorem mergeFld_congr {f : Fld} {s t : State} (w : RWr) (h : fget f t = fget f s) : mergeFld w f t = mergeFld w f s := by
  unfold mergeFld
  rw [h]

/-- The field lies outside the CMP windows and the sluices, whose rules alone look at the state (R180, R202). -/
abbrev StaticFld (f : Fld) : Prop := inCmp (f.key / 64 * 8) = false ∧ inSlc (f.key / 64 * 8) = false

theorem legalFld_static {f : Fld} (hf : StaticFld f) (v : Nat) (s t : State) : legalFld f v t = legalFld f v s := by
  obtain ⟨hc, hs⟩ := hf
  simp [legalFld, hc, hs]

theorem writtenValue_congr {f : Fld} {s t : State} (w : RWr) (a : Access) (hf : StaticFld f) (h : fget f t = fget f s) :
    writtenValue w f a t = writtenValue w f a s := by
  unfold writtenValue
  rw [mergeFld_congr w h, h, legalFld_static hf _ s t]

theorem refusedValue_congr {f : Fld} {s t : State} (w : RWr) (a : Access) (hf : StaticFld f) (h : fget f t = fget f s) :
    refusedValue w f a t = refusedValue w f a s := by
  unfold refusedValue
  rw [mergeFld_congr w h, h, legalFld_static hf _ s t]

/-- All that a write does to a field without a command: it leaves the state, or loads the field's new value; it counts a
refused value. -/
theorem writeFld_cases (w : RWr) (f : Fld) {a : Access} (ha : a ≠ .w1sHu) (s : State) :
    ∃ t, writeFld w f a s = (t, refusedValue w f a s, false)
      ∧ (t = s ∧ writtenValue w f a s = fget f s
        ∨ t = fset f (writtenValue w f a s) s ∧ writtenValue w f a s < 2 ^ f.width) := by
  have hlt := mergeFld_lt w f s
  have hne : (mergeFld w f s != fget f s) = decide (mergeFld w f s ≠ fget f s) := by rw [decide_not]; rfl
  unfold writeFld writtenValue refusedValue
  rw [hne]
  cases ht : touches w f with
  | false => exact ⟨s, by simp, .inl (by simp)⟩
  | true =>
    cases a with
    | ro | roHu => exact ⟨s, by simp, .inl (by simp)⟩
    | rw | rwHu | rws =>
      cases hl : legalFld f (mergeFld w f s) s with
      | false => exact ⟨s, by simp [hl], .inl (by simp)⟩
      | true => exact ⟨fset f (mergeFld w f s) s, by simp [hl], .inr (by simp [hlt])⟩
    | w1cHu =>
      by_cases h1 : mergeFld w f s = 1
      · exact ⟨fset f 0 s, by simp [h1], .inr (by simp [h1, Nat.two_pow_pos])⟩
      · exact ⟨s, by simp [h1], .inl (by simp [h1])⟩
    | w1sHu => exact absurd rfl ha
    | cnt => exact ⟨fset f (mergeFld w f s) s, by simp, .inr (by simp [hlt])⟩

/-! ### Every field of a write -/

/-- A write of `w` to the fields `fs` took the state from `s` to `t`: each field holds what its access type gives it, and
nothing else differs. -/
structure FieldsWritten (w : RWr) (fs : List (Fld × Access)) (s t : State) : Prop where
  frame : SameBut [.regs] s t
  written : ∀ x ∈ fs, fget x.1 t = writtenValue w x.1 x.2 s
  others : RegsBut (fs.map (·.1)) s t

theorem fieldsWritten_singleton (w : RWr) (f : Fld) {a : Access} (ha : a ≠ .w1sHu) (s : State) :
    ∃ t, writeFld w f a s = (t, refusedValue w f a s, false) ∧ FieldsWritten w [(f, a)] s t := by
  obtain ⟨t, ht, ⟨rfl, hv⟩ | ⟨rfl, hlt⟩⟩ := writeFld_cases w f ha s
  · exact ⟨_, ht, rfl, by simpa using hv.symm, fun _ _ => rfl⟩
  · exact ⟨_, ht, rfl, by simpa using fget_fset_of_lt s hlt, fun g hg => fget_fset_ne _ _ (hg f (by simp))⟩

/-- Writing the fields of a register one after another gives each its value by the state before the write, since they have
distinct keys and none of their rules looks at another field. -/
theorem writeFlds_fieldsWritten (w : RWr) {fs : List (Fld × Access)} (hk : fs.Pairwise (fun x y => x.1.key ≠ y.1.key))
    (hf : ∀ x ∈ fs, StaticFld x.1) (ha : ∀ x ∈ fs, x.2 ≠ .w1sHu) (s : State) :
    ∃ t, writeFlds w fs s = (t, fs.any (fun x => refusedValue w x.1 x.2 s), []) ∧ FieldsWritten w fs s t := by
  induction fs generalizing s with
  | nil => exact ⟨s, rfl, rfl, by simp, fun _ _ => rfl⟩
  | cons x r ih =>
    obtain ⟨f, a⟩ := x
    obtain ⟨hne, hk⟩ := List.pairwise_cons.1 hk
    obtain ⟨-, hf⟩ := List.forall_mem_cons.1 hf
    obtain ⟨hfa, ha⟩ := List.forall_mem_cons.1 ha
    obtain ⟨u, hu, hframe, hwritten, hothers⟩ := fieldsWritten_singleton w f hfa s
    obtain ⟨t, ht, hframe', hwritten', hothers'⟩ := ih hk hf ha u
    have hkeep : ∀ x ∈ r, fget x.1 u = fget x.1 s := fun x hx => hothers x.1 (by simpa using (hne x hx).symm)
    have hrefused : r.any (fun x => refusedValue w x.1 x.2 u) = r.any (fun x => refusedValue w x.1 x.2 s) :=
      Bool.eq_iff_iff.2 (by
        simp only [List.any_eq_true]
        exact exists_congr fun x => and_congr_right fun hx => by rw [refusedValue_congr w x.2 (hf x hx) (hkeep x hx)])
    refine ⟨t, by simp [writeFlds, hu, ht, hrefused], hframe'.trans hframe, ?_, ?_⟩
    · refine List.forall_mem_cons.2 ⟨?_, fun x hx => ?_⟩
      · rw [hothers' f (by simpa using hne)]
        exact hwritten (f, a) (by simp)
      · rw [hwritten' x hx, writtenValue_congr w x.2 (hf x hx) (hkeep x hx)]
    · intro g hg
      obtain ⟨hgf, hgr⟩ := List.forall_mem_cons.1 hg
      rw [hothers' g hgr, hothers g (by simpa using hgf)]

/-! ### Where a write of management lands (R548 to R551) -/

@[simp] theorem wrOf_reg (addr : Nat) (wide : Bool) (value : Nat) : (wrOf addr wide value).reg = addr / 8 * 8 := by
  cases wide <;> rfl

theorem alignedAcc_eq_false {a : RegAcc} (h : a.addr.toNat % (if a.wide then 8 else 4) ≠ 0) : alignedAcc a = false := by
  simpa [alignedAcc] using h

theorem alignedAcc_eq_true {a : RegAcc} (h : a.addr.toNat % (if a.wide then 8 else 4) = 0) : alignedAcc a = true := by
  simpa [alignedAcc] using h

theorem barUp_management {src : Src} (h : isManagement src = true) (s : State) : barUp src s = true := by
  cases src with
  | host p r => cases h
  | mgmt | firmware => rfl

theorem landing_management {src : Src} (h : isManagement src = true) {addr : Nat} (hlt : addr < 2 ^ 25) (s : State) :
    landing src addr s = some addr := by
  cases src with
  | host p r => cases h
  | mgmt | firmware => exact if_pos hlt

section
variable {eyes : Option (List (Fin 9 × BitVec 8 × BitVec 8))} {src : Src} {a : RegAcc} {fs : List (Fld × Access)}
variable (hm : isManagement src = true)
include hm

theorem writeAccess_misaligned (ha : alignedAcc a = false) (s : State) :
    writeAccess eyes src a s = finc GLB_BAD_ACCESS_CNT s := by
  simp [writeAccess, barUp_management hm, ha]

variable (ha : alignedAcc a = true) (hlt : a.addr.toNat < 2 ^ 25)
include ha hlt

theorem writeAccess_unoccupied (hr : regAt (a.addr.toNat / 8 * 8) = none) (s : State) : writeAccess eyes src a s = s := by
  simp [writeAccess, barUp_management hm, ha, landing_management hm hlt, hr]

theorem writeAccess_brl (hr : regAt (a.addr.toNat / 8 * 8) = some fs) (hb : inBrl (a.addr.toNat / 8 * 8) = true) (s : State) :
    writeAccess eyes src a s = finc GLB_IGNORED_WRITE_CNT s := by
  simp [writeAccess, barUp_management hm, ha, landing_management hm hlt, hr, hb]

theorem writeAccess_plain (hr : regAt (a.addr.toNat / 8 * 8) = some fs) (hp : PlainRegister (a.addr.toNat / 8 * 8)) (s : State) :
    writeAccess eyes src a s = writeReg eyes (wrOf a.addr.toNat a.wide a.value.toNat) fs s := by
  obtain ⟨hc, hb, hs, -⟩ := hp
  simp [writeAccess, barUp_management hm, ha, landing_management hm hlt, hr, hc, hb, hs, guarded]

end

/-! ### A write to a register that starts nothing -/

theorem wholeOk_plain {w : RWr} (hp : PlainRegister w.reg) (s : State) : wholeOk w s = true := by
  obtain ⟨hc, -, -, -, -, hagent, -⟩ := hp
  simp [wholeOk, hagent, hc]

theorem afterWrite_plain {w : RWr} (hp : PlainRegister w.reg) (s t : State) : afterWrite w s t = t := by
  obtain ⟨hc, -, hs, -, hroute, hagent, hnot⟩ := hp
  simp only [List.mem_cons, List.not_mem_nil, or_false, not_or] at hnot
  obtain ⟨h1, h2, h3, h4, h5⟩ := hnot
  simp [afterWrite, hagent, hc, hs, hroute, h1, h2, h3, h4, h5]

/-- A write to a plain register without command fields writes its fields, and counts when a refused value was carried. -/
theorem writeReg_plain {eyes : Option (List (Fin 9 × BitVec 8 × BitVec 8))} {w : RWr} {fs : List (Fld × Access)} {s t : State}
    {flag : Bool} (hp : PlainRegister w.reg) (h : writeFlds w fs s = (t, flag, [])) :
    writeReg eyes w fs s = onlyIf flag (finc GLB_IGNORED_WRITE_CNT) t := by
  have hwhole := wholeOk_plain hp s
  have hafter := afterWrite_plain hp s t
  obtain ⟨hc, -, hs, hfeat, -⟩ := hp
  simp [writeReg, hs, hfeat, hwhole, h, hafter, each, onlyIf]

/-- What a write to an occupied plain register does (R7 to R13). -/
theorem writeReg_plain_spec {eyes : Option (List (Fin 9 × BitVec 8 × BitVec 8))} {w : RWr} {fs : List (Fld × Access)}
    (hp : PlainRegister w.reg) (h8 : w.reg % 8 = 0) (hr : regAt w.reg = some fs) (hw : ∀ x ∈ fs, x.2 ≠ .w1sHu) (s : State) :
    ∃ u, writeReg eyes w fs s = onlyIf (fs.any (fun x => refusedValue w x.1 x.2 s)) (finc GLB_IGNORED_WRITE_CNT) u
      ∧ FieldsWritten w fs s u := by
  have hstatic : ∀ x ∈ fs, StaticFld x.1 := fun x hx => by
    obtain ⟨hcmp, -, hslc, -⟩ := hp
    rw [StaticFld, reg_of_mem_regAt hr h8 hx]
    exact ⟨hcmp, hslc⟩
  obtain ⟨u, hu, hwritten⟩ := writeFlds_fieldsWritten w (regAt_keys_ne hr) hstatic hw s
  exact ⟨u, writeReg_plain hp hu, hwritten⟩

end Sys2Proof.Machine
end

section
/-! The statements about register accesses (chapter 0). -/

namespace Sys2Proof.Machine

theorem regAt_ignoredWriteCnt : regAt 0x10 = some [(GLB_IGNORED_WRITE_CNT, .cnt)] := rfl

/-- No write to GLB_IGNORED_WRITE_CNT carries a refused value: a CNT field loads what is written. -/
theorem not_refused_ignoredWriteCnt {fs : List (Fld × Access)} (h : regAt 0x10 = some fs) (w : RWr) (s : State) :
    fs.any (fun x => refusedValue w x.1 x.2 s) = false := by
  obtain rfl := Option.some.inj (regAt_ignoredWriteCnt.symm.trans h)
  simp [refusedValue]

/-- Settles O7: the fields of a register have distinct keys in that register, and a plain register's rules look at no other
field, so the writes of its fields one by one are the write of the register. -/
theorem registerAccessTypes : Obligations.RegisterAccessTypes := by
  intro src a s fs hm ha hlt hp hr hw
  have hwrite := writeAccess_plain (eyes := none) hm ha hlt hr hp s
  have hreg := (wrOf_reg a.addr.toNat a.wide a.value.toNat).symm
  have h8 : a.addr.toNat / 8 * 8 % 8 = 0 := Nat.mul_mod_left _ _
  generalize wrOf a.addr.toNat a.wide a.value.toNat = w at hwrite hreg ⊢
  rw [hreg] at hp hr h8 ⊢
  obtain ⟨u, hu, hframe, hwritten, hothers⟩ := writeReg_plain_spec (eyes := none) hp h8 hr hw s
  have hbut : RegsBut (GLB_IGNORED_WRITE_CNT :: fs.map (·.1)) s u := fun g hg => hothers g (List.forall_mem_cons.1 hg).2
  have hkey : w.reg ≠ 0x10 → ∀ x ∈ fs, x.1.key ≠ GLB_IGNORED_WRITE_CNT.key := fun hne x hx heq =>
    hne ((reg_of_mem_regAt hr h8 hx).symm.trans (congrArg (· / 64 * 8) heq))
  have hkept : w.reg ≠ 0x10 → fget GLB_IGNORED_WRITE_CNT u = fget GLB_IGNORED_WRITE_CNT s := fun hne =>
    hothers _ (List.forall_mem_map.2 fun x hx => (hkey hne x hx).symm)
  refine ⟨_, congrArg Host.Outcome.next (hwrite.trans hu), ?_⟩
  cases hrefused : fs.any (fun x => refusedValue w x.1 x.2 s) with
  | false => exact ⟨hframe, hwritten, hbut, hkept⟩
  | true =>
    have hne : w.reg ≠ 0x10 := fun h => by simp [not_refused_ignoredWriteCnt (h ▸ hr) w s] at hrefused
    refine ⟨hframe, fun x hx => ?_, fun g hg => ?_, fun _ => ?_⟩
    · exact (fget_finc_ne u (hkey hne x hx)).trans (hwritten x hx)
    · exact (fget_finc_ne u (List.forall_mem_cons.1 hg).1).trans (hbut g hg)
    · have hcounted := finc_counted GLB_IGNORED_WRITE_CNT u
      rwa [Counted, hkept hne] at hcounted

/-- The access of BRL_WRITE, moved into the BRL block (R18). -/
def brlAcc (a : RegAcc) : RegAcc := { a with addr := BitVec.ofNat 64 (0xD00000 + a.addr.toNat % 2 ^ 20) }

theorem exec_brlWrite (src : Src) (a : RegAcc) (s : State) :
    exec (.brlWrite src a) s = .next (writeAccess none src (brlAcc a) s) := rfl

theorem toNat_brlAcc_addr (a : RegAcc) : (brlAcc a).addr.toNat = 0xD00000 + a.addr.toNat % 2 ^ 20 := by
  rw [brlAcc, BitVec.toNat_ofNat]
  omega

theorem alignedAcc_brlAcc {a : RegAcc} (h : a.addr.toNat % (if a.wide then 8 else 4) = 0) : alignedAcc (brlAcc a) = true := by
  refine alignedAcc_eq_true ?_
  rw [toNat_brlAcc_addr]
  show (0xD00000 + a.addr.toNat % 2 ^ 20) % (if a.wide then 8 else 4) = 0
  cases hw : a.wide with
  | false | true =>
    simp only [hw, Bool.false_eq_true, if_true, if_false] at h ⊢
    omega

/-- Settles O8: the access lands aligned in the BRL block, where a write to an occupied offset is counted whatever it carries. -/
theorem brlWritesAreCounted : Obligations.BrlWritesAreCounted := by
  intro src a s hm ha
  have halign := alignedAcc_brlAcc ha
  have haddr := toNat_brlAcc_addr a
  have hlt : (brlAcc a).addr.toNat < 2 ^ 25 := by omega
  have hreg : 0xD00000 + a.addr.toNat % 2 ^ 20 / 8 * 8 = (brlAcc a).addr.toNat / 8 * 8 := by omega
  have hbrl : inBrl ((brlAcc a).addr.toNat / 8 * 8) = true := by
    simp only [inBrl, beq_iff_eq]
    omega
  refine ⟨_, exec_brlWrite src a s, ?_⟩
  rw [hreg]
  cases hr : regAt ((brlAcc a).addr.toNat / 8 * 8) with
  | none => exact writeAccess_unoccupied hm halign hlt hr s
  | some fs =>
    rw [writeAccess_brl hm halign hlt hr hbrl]
    exact finc_only_counts _ _

/-- Settles O9: BAD_SIZE_ACCESS only counts or answers, and a misaligned access of management is discarded wherever it falls. -/
theorem badAccessIsDiscarded : Obligations.BadAccessIsDiscarded := by
  refine ⟨fun addr s => ⟨_, rfl, finc_only_counts _ _⟩, fun addr s => ⟨_, rfl, rfl, rfl⟩, fun src a s hm ha => ?_⟩
  exact ⟨_, congrArg Host.Outcome.next (writeAccess_misaligned hm (alignedAcc_eq_false ha) s), finc_only_counts _ _⟩

end Sys2Proof.Machine
end

section
/-! The statements about resets (R14, R107, R443, R468, R483, R542). -/

namespace Sys2Proof.Machine

/-- A field whose key a reset does not keep reads its Reset value. -/
theorem fget_kkeep {f : Fld} (s : State) (m : KMap Nat) {p : Nat → Bool} (hp : p f.key = false) :
    fget f { s with regs := kkeep m p } = f.reset := by
  have hnone : kget? (kkeep m p) f.key = none := kget?_eq_none fun e he heq => by
    have hkept : p e.1 = true := (List.mem_filter.1 he).2
    rw [heq, hp] at hkept
    cases hkept
  rw [fget, kgetD, hnone, Option.getD_none]

/-! ### Cold reset -/

theorem coldReset_regs (s : State) : (coldReset s).regs = ({ s with
    regs := kkeep (volatileLost (linksFall s)).regs (fun k => levelKey k || inBrl (k / 8) || inLrc (k / 8)) } : State).regs := by
  simp only [coldReset, holdKeys, kkeep]

theorem fget_coldReset {f : Fld} (s : State) (hl : levelKey f.key = false) (hb : inBrl (f.key / 8) = false)
    (hc : inLrc (f.key / 8) = false) : fget f (coldReset s) = f.reset :=
  (fget_regs (coldReset_regs s)).trans (fget_kkeep s _ (by simp [hl, hb, hc]))

theorem holdKeys_held (s : State) : ∀ k ∈ (holdKeys s).sec.keys, k.2.held = true :=
  List.forall_mem_map.2 fun _ _ => rfl

/-- Every key that stays over a cold reset is held (R483). -/
theorem coldReset_keys_held (s : State) : ∀ k ∈ (coldReset s).sec.keys, k.2.held = true := by
  unfold coldReset
  exact holdKeys_held _

theorem exec_coldReset (s : State) : exec .coldReset s = .next (if s.pwr.aon then coldReset s else s) := rfl

/-! ### Warm reset -/

theorem warmReset_regs (s : State) : (warmReset s).regs = (fsetb GLB_PKG_STATUS_FAULT
    (fbit GLB_PKG_STATUS_THERMTRIP s || s.clk.pd38 != 0)
    { s with regs := kkeep (volatileLost (linksFall s)).regs warmKeeps }).regs := rfl

theorem fget_warmReset {f : Fld} (s : State) (hw : warmKeeps f.key = false) (hf : f.key ≠ GLB_PKG_STATUS_FAULT.key) :
    fget f (warmReset s) = f.reset := by
  rw [fget_regs (warmReset_regs s), fsetb, fget_fset_ne _ _ hf, fget_kkeep s _ hw]

/-- FAULT_N stays over a warm reset for a thermal trip or a lost AORC alone (R443, R468). -/
theorem fget_fault_warmReset (s : State) :
    fget GLB_PKG_STATUS_FAULT (warmReset s) = b2n (fget GLB_PKG_STATUS_THERMTRIP s == 1 || s.clk.pd38 != 0) := by
  rw [fget_regs (warmReset_regs s), fsetb]
  refine fget_fset_of_lt _ ?_
  cases fbit GLB_PKG_STATUS_THERMTRIP s || s.clk.pd38 != 0 <;> decide

/-- A permitted WARM_RESET is journalled and answered, and then the part resets. -/
theorem exec_warmReset {m : MgtReq} {s : State} (h : MgtUp m s) :
    exec (.warmReset m) s = .next (warmReset (answer m 0 [] (journalAppend s))) := by
  obtain ⟨hs, hup⟩ := h
  show Host.Outcome.next (mgtCmd m _ s) = _
  simp [mgtCmd, hs, hup]

/-- Settles O50: a reset drops every register field that it does not keep, and builds the other tables afresh. -/
theorem resets : Obligations.Resets := by
  refine ⟨fun s haon => ⟨coldReset s, by rw [exec_coldReset, if_pos haon], ?_⟩, fun s haon => ?_, fun m s hup => ?_⟩
  · exact ⟨fun f => fget_coldReset s, rfl, rfl, rfl, rfl, rfl, rfl, rfl, rfl, rfl, rfl, coldReset_keys_held s, rfl⟩
  · rw [exec_coldReset, haon]
    rfl
  · refine ⟨_, exec_warmReset hup, fun f => fget_warmReset _, fget_fault_warmReset _, ?_⟩
    exact ⟨rfl, rfl, rfl, rfl, rfl, rfl, rfl, rfl, rfl, rfl, rfl⟩

end Sys2Proof.Machine
end

section
/-! The statements about the state after reset (R1, R14, R81, R555). -/

namespace Sys2Proof.Machine

/-- Settles O3: the state after reset lists no register field, no memory, no composition and no command. -/
theorem resetLeavesResetValues : Obligations.ResetLeavesResetValues := by
  have hfields := fget_reset
  refine ⟨hfields, hfields _, hfields _, hfields _, hfields _, hfields _, ?_, ?_, ?_, ?_, ?_, ?_, ?_, rfl⟩
  · decide
  · decide
  · decide
  all_goals exact fun _ => rfl

/-- Settles O4: the state after reset has an empty register file and empty memory tables. -/
theorem resetIsWellFormed : Obligations.ResetIsWellFormed := ⟨List.Pairwise.nil, Memory.wf_reset⟩

end Sys2Proof.Machine
end

section
/-! What the steps of a tile's power states change: which register fields an operation may write, the bits of PWR_DOMAIN and
PWR_RETAIN, the wake of a tile, the exit from self-refresh (R22, R423 to R425). -/

namespace Sys2Proof.Machine

/-! ### Operations that write register fields alone -/

/-- From `s` to `t` nothing changed but the listed register fields. -/
def OnlyFlds (l : List Fld) (s t : State) : Prop := RegsBut l s t ∧ SameBut [.regs] s t

theorem OnlyFlds.refl (l : List Fld) (s : State) : OnlyFlds l s s := ⟨fun _ _ => rfl, rfl⟩

theorem OnlyFlds.mono {l m : List Fld} {s t : State} (h : OnlyFlds l s t) (hlm : l ⊆ m) : OnlyFlds m s t :=
  ⟨fun f hf => h.1 f fun g hg => hf g (hlm hg), h.2⟩

theorem OnlyFlds.trans {l m : List Fld} {s t u : State} (h : OnlyFlds l s t) (h' : OnlyFlds m t u) : OnlyFlds (l ++ m) s u :=
  ⟨fun f hf => (h'.1 f fun g hg => hf g (List.mem_append_right l hg)).trans (h.1 f fun g hg => hf g (List.mem_append_left m hg)),
    h'.2.trans h.2⟩

theorem OnlyFlds.prt_eq {l : List Fld} {s t : State} (h : OnlyFlds l s t) : t.prt = s.prt := by
  have hprt := congrArg State.prt h.2
  exact hprt

theorem OnlyFlds.pan_eq {l : List Fld} {s t : State} (h : OnlyFlds l s t) : t.pan = s.pan := by
  have hpan := congrArg State.pan h.2
  exact hpan

/-- A field with a key of its own reads as before. -/
theorem OnlyFlds.fget_eq {l : List Fld} {s t : State} (h : OnlyFlds l s t) {f : Fld} (hf : ∀ g ∈ l, f.key ≠ g.key) :
    fget f t = fget f s := h.1 f hf

theorem fset_onlyFlds (f : Fld) (v : Nat) (s : State) : OnlyFlds [f] s (fset f v s) :=
  ⟨fun _ hg => fget_fset_ne v s (hg f (by simp)), rfl⟩

theorem finc_onlyFlds (f : Fld) (s : State) : OnlyFlds [f] s (finc f s) := ⟨finc_regsBut f s, finc_sameBut f s⟩

theorem onlyIf_onlyFlds {l : List Fld} {f : State → State} (h : ∀ s, OnlyFlds l s (f s)) (b : Bool) (s : State) :
    OnlyFlds l s (onlyIf b f s) := by
  cases b with
  | false => exact .refl l s
  | true => exact h s

theorem each_onlyFlds {α : Type} {l : List α} {f : α → State → State} {m : List Fld} (h : ∀ a ∈ l, ∀ s, OnlyFlds m s (f a s))
    (s : State) : OnlyFlds m s (each l f s) := by
  induction l generalizing s with
  | nil => exact .refl m s
  | cons a r ih =>
    obtain ⟨ha, hr⟩ := List.forall_mem_cons.1 h
    exact ((ha s).trans (ih hr (f a s))).mono (by simp)

theorem setDomain_onlyFlds (n : Nat) (on : Bool) (s : State) : OnlyFlds [PWR_DOMAIN_ON] s (setDomain n on s) := fset_onlyFlds _ _ s

theorem setRetain_onlyFlds (n : Nat) (on : Bool) (s : State) : OnlyFlds [PWR_RETAIN_SELF_REFRESH] s (setRetain n on s) :=
  fset_onlyFlds _ _ s

/-- The clock codes that PWR_TILE_CODE shows. -/
def tileCodeFlds : List Fld := (List.range 4).map PWR_TILE_CODE

theorem showCodes_onlyFlds (s : State) : OnlyFlds tileCodeFlds s (showCodes s) :=
  each_onlyFlds (fun _ hk s => (fset_onlyFlds _ _ s).mono (List.cons_subset.2 ⟨List.mem_map_of_mem hk, List.nil_subset _⟩)) s

/-! ### Bits of PWR_DOMAIN and PWR_RETAIN -/

theorem bitAt_eq_testBit (v i : Nat) : bitAt v i = v.testBit i := by
  rw [Nat.testBit_eq_decide_div_mod_eq]
  rfl

theorem and_two_pow_eq (v n : Nat) : v &&& 2 ^ n = if v.testBit n = true then 2 ^ n else 0 := by
  refine Nat.eq_of_testBit_eq fun i => ?_
  rw [Nat.testBit_and, Nat.testBit_two_pow]
  by_cases h : n = i
  · subst h
    cases hn : v.testBit n with
    | false => simp only [Bool.false_and, Bool.false_eq_true, if_false, Nat.zero_testBit]
    | true => simp only [Bool.true_and, if_true, Nat.testBit_two_pow]
  · simp only [h, decide_false, Bool.and_false]
    split
    · simp only [Nat.testBit_two_pow, h, decide_false]
    · rw [Nat.zero_testBit]

/-- Taking a bit out of a number leaves its other bits. -/
theorem testBit_sub_and_two_pow (v n i : Nat) : (v - (v &&& 2 ^ n)).testBit i = if i = n then false else v.testBit i := by
  rw [and_two_pow_eq]
  cases hn : v.testBit n with
  | false =>
    simp only [Bool.false_eq_true, if_false, Nat.sub_zero]
    split
    · next h => rw [h, hn]
    · rfl
  | true =>
    have hodd : v / 2 ^ n % 2 = 1 := by simpa [Nat.testBit_eq_decide_div_mod_eq] using hn
    have hlt : v % 2 ^ n < 2 ^ n := Nat.mod_lt _ (Nat.two_pow_pos n)
    have hv : 2 ^ n * (v / 2 ^ n) + v % 2 ^ n = v := Nat.div_add_mod v (2 ^ n)
    have hsub : v - (if true = true then 2 ^ n else 0) = 2 ^ n * (v / 2 ^ n - 1) + v % 2 ^ n := by
      have hle : 2 ^ n ≤ 2 ^ n * (v / 2 ^ n) := Nat.le_mul_of_pos_right _ (Nat.pos_of_ne_zero fun h => by simp [h] at hodd)
      rw [if_pos rfl, Nat.mul_sub, Nat.mul_one]
      omega
    rw [hsub, Nat.testBit_two_pow_mul_add _ hlt]
    conv => rhs; rw [← hv, Nat.testBit_two_pow_mul_add _ hlt]
    generalize v / 2 ^ n = q at hodd
    rcases Nat.lt_trichotomy i n with h | rfl | h
    · simp [h, Nat.ne_of_lt h]
    · simp only [Nat.lt_irrefl, if_false, if_true, Nat.sub_self, Nat.testBit_eq_decide_div_mod_eq, decide_eq_false_iff_not]
      omega
    · obtain ⟨k, rfl⟩ := Nat.exists_eq_add_of_lt h
      have hk : n + k + 1 - n = k + 1 := by omega
      have hne : n + k + 1 ≠ n := by omega
      have hge : ¬ n + k + 1 < n := by omega
      have hhalf : (q - 1) / 2 = q / 2 := by omega
      simp only [hk, hne, hge, if_false, Nat.testBit_add_one, hhalf]

/-- The bits of a `w`-bit field in which bit `n` was loaded. -/
theorem bitAt_load {w i : Nat} (v n : Nat) (on : Bool) (hi : i < w) :
    bitAt ((if on then v ||| 2 ^ n else v - (v &&& 2 ^ n)) % 2 ^ w) i = if i = n then on else bitAt v i := by
  simp only [bitAt_eq_testBit, Nat.testBit_mod_two_pow, hi, decide_true, Bool.true_and]
  cases on with
  | false => exact testBit_sub_and_two_pow v n i
  | true =>
    simp only [if_true, Nat.testBit_or, Nat.testBit_two_pow]
    split
    · next h => simp [h]
    · next h => simp [Ne.symm h]

theorem domainOn_setDomain {i : Nat} (n : Nat) (on : Bool) (s : State) (hi : i < 40) :
    domainOn i (setDomain n on s) = if i = n then on else domainOn i s := by
  rw [domainOn, setDomain, fget_fset_same]
  exact bitAt_load _ n on hi

theorem retain_setRetain {i : Nat} (n : Nat) (on : Bool) (s : State) (hi : i < 32) :
    bitAt (fget PWR_RETAIN_SELF_REFRESH (setRetain n on s)) i = if i = n then on else bitAt (fget PWR_RETAIN_SELF_REFRESH s) i := by
  rw [setRetain, fget_fset_same]
  exact bitAt_load _ n on hi

theorem domainOn_congr {s t : State} (h : fget PWR_DOMAIN_ON t = fget PWR_DOMAIN_ON s) (n : Nat) : domainOn n t = domainOn n s := by
  rw [domainOn, h, domainOn]

theorem mayPower_congr {t : Nat} {s u : State} (hd : fget PWR_DOMAIN_ON u = fget PWR_DOMAIN_ON s)
    (hr : fget (TIL_PAN_SPARE_RETIRED t) u = fget (TIL_PAN_SPARE_RETIRED t) s) : mayPower t u = mayPower t s := by
  rw [mayPower, domainOn_congr hd, fbit, hr, mayPower, fbit]

/-! ### Keys of the tiles' fields -/

theorem power_key_ne {i t : Nat} (h : i ≠ t) : (TIL_STATE_POWER i).key ≠ (TIL_STATE_POWER t).key := by
  simp only [TIL_STATE_POWER]
  omega

/-- The fields of the PWR block and above lie beyond every tile's. -/
theorem tile_key_ne_of_le {t : Nat} (ht : t < 32) {f : Fld} (hf : 8 * 0x900000 ≤ f.key) :
    (TIL_STATE_POWER t).key ≠ f.key ∧ (TIL_STATE_INCARNATION t).key ≠ f.key ∧ (TIL_PAN_SPARE_RETIRED t).key ≠ f.key := by
  simp only [TIL_STATE_POWER, TIL_STATE_INCARNATION, TIL_PAN_SPARE_RETIRED]
  omega

theorem tileCodeFlds_key {f : Fld} (h : f ∈ tileCodeFlds) : 8 * 0x900100 ≤ f.key := by
  obtain ⟨k, -, rfl⟩ := List.mem_map.1 h
  simp only [PWR_TILE_CODE]
  omega

/-- The fields that the wake of tile `t` may write: its state, PWR_DOMAIN and the count of wakes. -/
def wakeFlds (t : Nat) : List Fld := [TIL_STATE_POWER t, PWR_DOMAIN_ON, PWR_EVENT_CNT 5]

/-! ### A tile wakes (R423, R424) -/

theorem wakeTile_gated {t : Nat} {s : State} (hp : fget (TIL_STATE_POWER t) s = 0) (hm : mayPower t s = true) :
    wakeTile t s = finc (PWR_EVENT_CNT 5) (setDomain t true (fset (TIL_STATE_POWER t) 1 s)) := by
  simp [wakeTile, hp, hm]

theorem wakeTile_flushing {t : Nat} {s : State} (hp : fget (TIL_STATE_POWER t) s = 3) :
    wakeTile t s = fset (TIL_STATE_POWER t) 2 s := by
  simp [wakeTile, hp]

theorem wakeTile_kept {t : Nat} {s : State} (h0 : ¬ (fget (TIL_STATE_POWER t) s = 0 ∧ mayPower t s = true))
    (h3 : fget (TIL_STATE_POWER t) s ≠ 3) : wakeTile t s = s := by
  unfold wakeTile
  split
  · next hp => rw [if_neg fun hm => h0 ⟨hp, hm⟩]
  · next hp => exact absurd hp h3
  · rfl

/-- The power state of a tile after its wake was asked for. -/
def wokenPower (t : Nat) (s : State) : Nat :=
  if fget (TIL_STATE_POWER t) s = 0 ∧ mayPower t s = true then 1
  else if fget (TIL_STATE_POWER t) s = 3 then 2 else fget (TIL_STATE_POWER t) s

theorem wakeTile_onlyFlds (t : Nat) (s : State) : OnlyFlds (wakeFlds t) s (wakeTile t s) := by
  by_cases h0 : fget (TIL_STATE_POWER t) s = 0 ∧ mayPower t s = true
  · rw [wakeTile_gated h0.1 h0.2]
    exact ((fset_onlyFlds _ _ s).trans (setDomain_onlyFlds _ _ _)).trans (finc_onlyFlds _ _)
  · by_cases h3 : fget (TIL_STATE_POWER t) s = 3
    · rw [wakeTile_flushing h3]
      exact (fset_onlyFlds _ _ s).mono (by simp [wakeFlds])
    · rw [wakeTile_kept h0 h3]
      exact .refl _ s

/-- A tile that wakes from its gated state: it is waking, its domain is on, and the wake is counted. -/
theorem wakeTile_gated_spec {t : Nat} {s : State} (ht : t < 32) (hp : fget (TIL_STATE_POWER t) s = 0)
    (hm : mayPower t s = true) :
    fget (TIL_STATE_POWER t) (wakeTile t s) = 1 ∧ domainOn t (wakeTile t s) = true
      ∧ Counted (PWR_EVENT_CNT 5) 1 s (wakeTile t s) := by
  rw [wakeTile_gated hp hm]
  have hcnt := tile_key_ne_of_le ht (f := PWR_EVENT_CNT 5) (by decide)
  have hdom := tile_key_ne_of_le ht (f := PWR_DOMAIN_ON) (by decide)
  refine ⟨?_, ?_, ?_⟩
  · rw [fget_finc_ne _ hcnt.1, (setDomain_onlyFlds _ _ _).fget_eq (by simpa using hdom.1)]
    exact fget_fset_of_lt s (by simp [TIL_STATE_POWER])
  · rw [domainOn_congr (fget_finc_ne _ (by decide)), domainOn_setDomain _ _ _ (by omega), if_pos rfl]
  · have hcounted := finc_counted (PWR_EVENT_CNT 5) (setDomain t true (fset (TIL_STATE_POWER t) 1 s))
    rwa [Counted, (setDomain_onlyFlds _ _ _).fget_eq (by decide), fget_fset_ne _ _ hcnt.1.symm] at hcounted

theorem fget_power_wakeTile {t : Nat} (ht : t < 32) (s : State) :
    fget (TIL_STATE_POWER t) (wakeTile t s) = wokenPower t s := by
  unfold wokenPower
  split
  · next h => exact (wakeTile_gated_spec ht h.1 h.2).1
  · next h0 =>
    split
    · next h3 =>
      rw [wakeTile_flushing h3]
      exact fget_fset_of_lt s (by simp [TIL_STATE_POWER])
    · next h3 => rw [wakeTile_kept h0 h3]

theorem domainOn_wakeTile {n t : Nat} (hn : n < 40) (ht : t < 32) (h : n ≠ t) (s : State) :
    domainOn n (wakeTile t s) = domainOn n s := by
  have hkey := tile_key_ne_of_le ht (f := PWR_DOMAIN_ON) (by decide)
  by_cases h0 : fget (TIL_STATE_POWER t) s = 0 ∧ mayPower t s = true
  · rw [wakeTile_gated h0.1 h0.2, domainOn_congr (fget_finc_ne _ (by decide)), domainOn_setDomain _ _ _ hn, if_neg h]
    exact domainOn_congr (fget_fset_ne _ _ hkey.1.symm) n
  · by_cases h3 : fget (TIL_STATE_POWER t) s = 3
    · rw [wakeTile_flushing h3]
      exact domainOn_congr (fget_fset_ne _ _ hkey.1.symm) n
    · rw [wakeTile_kept h0 h3]

/-- The wake of a tile leaves what the wake of another rests on. -/
theorem wakeTile_other {i t : Nat} (hi : i < 32) (ht : t < 32) (h : i ≠ t) (s : State) :
    fget (TIL_STATE_POWER i) (wakeTile t s) = fget (TIL_STATE_POWER i) s ∧ mayPower i (wakeTile t s) = mayPower i s := by
  have honly := wakeTile_onlyFlds t s
  have hdom := tile_key_ne_of_le hi (f := PWR_DOMAIN_ON) (by decide)
  have hcnt := tile_key_ne_of_le hi (f := PWR_EVENT_CNT 5) (by decide)
  have hretired : (TIL_PAN_SPARE_RETIRED i).key ≠ (TIL_STATE_POWER t).key := by
    simp only [TIL_PAN_SPARE_RETIRED, TIL_STATE_POWER]
    omega
  refine ⟨honly.fget_eq (by simp [wakeFlds, power_key_ne h, hdom, hcnt]), ?_⟩
  have hr := honly.fget_eq (f := TIL_PAN_SPARE_RETIRED i) (by simp [wakeFlds, hretired, hdom, hcnt])
  rw [mayPower, domainOn_wakeTile (by omega) ht (by omega), fbit, hr, mayPower, fbit]

/-! ### The tiles of HOLD_ON wake (R423) -/

/-- What a write of HOLD_ON does to one tile. -/
def wakeHeld (t : Nat) (s : State) : State := if bitAt (fget PWR_WAKE_HOLD_ON s) t then wakeTile t s else s

theorem holdOnWritten_eq (s : State) : holdOnWritten s = each (List.range 32) wakeHeld s := rfl

/-- The fields that a write of HOLD_ON may bring to change beside its own. -/
def wakeAllFlds : List Fld := (List.range 32).flatMap wakeFlds

theorem wakeHeld_onlyFlds (t : Nat) (s : State) : OnlyFlds (wakeFlds t) s (wakeHeld t s) := by
  unfold wakeHeld
  split
  · exact wakeTile_onlyFlds t s
  · exact .refl _ s

theorem wakeHeld_other {i t : Nat} (hi : i < 32) (ht : t < 32) (h : i ≠ t) (s : State) :
    fget (TIL_STATE_POWER i) (wakeHeld t s) = fget (TIL_STATE_POWER i) s ∧ wokenPower i (wakeHeld t s) = wokenPower i s := by
  unfold wakeHeld
  split
  · obtain ⟨hp, hm⟩ := wakeTile_other hi ht h s
    exact ⟨hp, by rw [wokenPower, hp, hm, wokenPower]⟩
  · exact ⟨rfl, rfl⟩

theorem holdOn_wakeHeld {t : Nat} (ht : t < 32) (s : State) :
    fget PWR_WAKE_HOLD_ON (wakeHeld t s) = fget PWR_WAKE_HOLD_ON s := by
  have hkey := tile_key_ne_of_le ht (f := PWR_WAKE_HOLD_ON) (by decide)
  refine (wakeHeld_onlyFlds t s).fget_eq ?_
  simp only [wakeFlds, List.forall_mem_cons, List.not_mem_nil, false_imp_iff, implies_true, and_true]
  exact ⟨hkey.1.symm, by decide, by decide⟩

/-- Each tile of a list wakes when HOLD_ON names it, whatever the tiles before it did. -/
theorem fget_power_each_wakeHeld {l : List Nat} (hl : ∀ i ∈ l, i < 32) (hn : l.Nodup) {t : Nat} (ht : t < 32) (s : State) :
    fget (TIL_STATE_POWER t) (each l wakeHeld s)
      = if t ∈ l ∧ bitAt (fget PWR_WAKE_HOLD_ON s) t = true then wokenPower t s else fget (TIL_STATE_POWER t) s := by
  induction l generalizing s with
  | nil => simp [each]
  | cons a r ih =>
    obtain ⟨ha, hr⟩ := List.forall_mem_cons.1 hl
    obtain ⟨har, hn⟩ := List.nodup_cons.1 hn
    refine (ih hr hn (wakeHeld a s)).trans ?_
    rw [holdOn_wakeHeld ha]
    by_cases h : t = a
    · subst h
      simp only [har, false_and, if_false, List.mem_cons_self, true_and]
      unfold wakeHeld
      split
      · exact fget_power_wakeTile ht s
      · rfl
    · obtain ⟨hp, hw⟩ := wakeHeld_other ht ha h s
      simp only [hp, hw, List.mem_cons, h, false_or]

theorem fget_power_holdOnWritten {t : Nat} (ht : t < 32) (s : State) :
    fget (TIL_STATE_POWER t) (holdOnWritten s)
      = if bitAt (fget PWR_WAKE_HOLD_ON s) t = true then wokenPower t s else fget (TIL_STATE_POWER t) s := by
  rw [holdOnWritten_eq, fget_power_each_wakeHeld (fun _ => List.mem_range.1) List.nodup_range ht]
  simp only [List.mem_range, ht, true_and]

theorem holdOnWritten_onlyFlds (s : State) : OnlyFlds wakeAllFlds s (holdOnWritten s) :=
  each_onlyFlds (fun t ht s => (wakeHeld_onlyFlds t s).mono fun _ hf => List.mem_flatMap.2 ⟨t, ht, hf⟩) s

/-! ### The write of PWR_WAKE (R12, R423) -/

/-- The fields of PWR_WAKE. -/
def pwrWakeFlds : List (Fld × Access) := [(PWR_WAKE_HOLD_ON, .rw), (RSVD 0x900018 32 32, .ro)]

theorem regAt_pwrWake : regAt 0x900018 = some pwrWakeFlds := rfl

/-- PWR_WAKE lies in no block whose accesses have rules of their own. -/
theorem pwrWake_block : inCmp 0x900018 = false ∧ inBrl 0x900018 = false ∧ inSlc 0x900018 = false ∧ agentIndex 0x900018 = none := by
  decide

/-- A 64-bit write of PWR_WAKE. -/
def pwrWakeWr (v : Nat) : RWr := { reg := 0x900018, lo := 0, len := 64, value := v }

theorem writtenValue_holdOn {v : Nat} (hv : v < 2 ^ 32) (s : State) :
    writtenValue (pwrWakeWr v) PWR_WAKE_HOLD_ON .rw s = v := by
  have hmerge : mergeFld (pwrWakeWr v) PWR_WAKE_HOLD_ON s = v := by
    have hlo : fldLo PWR_WAKE_HOLD_ON = 0 := rfl
    have hw : PWR_WAKE_HOLD_ON.width = 32 := rfl
    simp only [mergeFld, mergeBits, pwrWakeWr, hlo, hw]
    omega
  have hlegal : legalFld PWR_WAKE_HOLD_ON v s = true := rfl
  have htouch : touches (pwrWakeWr v) PWR_WAKE_HOLD_ON = true := rfl
  simp [writtenValue, htouch, hmerge, hlegal]

/-- A write that nothing stops before its register, outside the CMP windows and the BRL block. -/
theorem writeAccess_of_landing {eyes : Option (List (Fin 9 × BitVec 8 × BitVec 8))} {src : Src} {a : RegAcc} {r : Nat} {w : RWr}
    {fs : List (Fld × Access)} {s : State} (hup : barUp src s = true) (halign : alignedAcc a = true)
    (hland : landing src a.addr.toNat s = some r) (hw : wrOf r a.wide a.value.toNat = w) (hr : regAt w.reg = some fs)
    (hcmp : inCmp w.reg = false) (hbrl : inBrl w.reg = false) (hguard : guarded src w s = false) :
    writeAccess eyes src a s = writeReg eyes w fs s := by
  simp [writeAccess, hup, halign, hland, hw, hr, hcmp, hbrl, hguard]

/-- Management's write of PWR_WAKE reaches the register. -/
theorem plainWrite_pwrWake {src : Src} (hm : isManagement src = true) {v : Nat} (hv : v < 2 ^ 64) (s : State) :
    plainWrite src (wideAcc 0x900018 v) s = writeReg none (pwrWakeWr v) pwrWakeFlds s := by
  obtain ⟨hcmp, hbrl, hslc, -⟩ := pwrWake_block
  have haddr : (wideAcc 0x900018 v).addr.toNat = 0x900018 := rfl
  have hwide : (wideAcc 0x900018 v).wide = true := rfl
  have hvalue : (wideAcc 0x900018 v).value.toNat = v := by
    rw [wideAcc, BitVec.toNat_ofNat, Nat.mod_eq_of_lt hv]
  have halign : alignedAcc (wideAcc 0x900018 v) = true := alignedAcc_eq_true (by rw [haddr, hwide, if_pos rfl])
  have hland : landing src (wideAcc 0x900018 v).addr.toNat s = some 0x900018 := by
    rw [haddr]
    exact landing_management hm (by decide) s
  have hwr : wrOf 0x900018 (wideAcc 0x900018 v).wide (wideAcc 0x900018 v).value.toNat = pwrWakeWr v := by
    rw [hwide, hvalue]
    rfl
  have hreg : (pwrWakeWr v).reg = 0x900018 := rfl
  have hguard : guarded src (pwrWakeWr v) s = false := by simp [guarded, hreg, hcmp, hslc]
  exact writeAccess_of_landing (barUp_management hm s) halign hland hwr regAt_pwrWake hcmp hbrl hguard

/-- What follows a write of PWR_WAKE: the tiles that HOLD_ON names wake, and a refused reserved bit is counted. -/
theorem writeReg_pwrWake {v : Nat} {s t : State} {flag : Bool} (h : writeFlds (pwrWakeWr v) pwrWakeFlds s = (t, flag, [])) :
    ∃ b, writeReg none (pwrWakeWr v) pwrWakeFlds s = onlyIf b (finc GLB_IGNORED_WRITE_CNT) (holdOnWritten t) := by
  obtain ⟨hcmp, -, hslc, hagent⟩ := pwrWake_block
  have hreg : (pwrWakeWr v).reg = 0x900018 := rfl
  refine ⟨flag && fget GLB_IGNORED_WRITE_CNT (holdOnWritten t) = fget GLB_IGNORED_WRITE_CNT t, ?_⟩
  have hafter : afterWrite (pwrWakeWr v) s t = holdOnWritten t := by simp [afterWrite, hreg, hcmp, hslc, hagent]
  have hwhole : wholeOk (pwrWakeWr v) s = true := by simp [wholeOk, hreg, hcmp, hagent]
  simp [writeReg, hreg, hslc, hwhole, h, hafter, each, onlyIf]

/-- What management's write of PWR_WAKE does: HOLD_ON is loaded, and each tile it names wakes by its state before the write. -/
theorem plainWrite_pwrWake_spec {src : Src} (hm : isManagement src = true) {v : Nat} (hv : v < 2 ^ 32) (s : State) :
    let u := plainWrite src (wideAcc 0x900018 v) s
    fget PWR_WAKE_HOLD_ON u = v ∧ SameBut [.regs] s u
      ∧ ∀ t < 32, fget (TIL_STATE_POWER t) u = if bitAt v t = true then wokenPower t s else fget (TIL_STATE_POWER t) s := by
  intro u
  have hw : ∀ x ∈ pwrWakeFlds, x.2 ≠ .w1sHu := by decide
  have hstatic : ∀ x ∈ pwrWakeFlds, StaticFld x.1 := by decide
  obtain ⟨a, ha, hframe, hwritten, hothers⟩ :=
    writeFlds_fieldsWritten (pwrWakeWr v) (regAt_keys_ne regAt_pwrWake) hstatic hw s
  obtain ⟨b, hb⟩ := writeReg_pwrWake ha
  have hu : u = onlyIf b (finc GLB_IGNORED_WRITE_CNT) (holdOnWritten a) :=
    (plainWrite_pwrWake hm (by omega) s).trans hb
  have hcount := onlyIf_onlyFlds (finc_onlyFlds GLB_IGNORED_WRITE_CNT) b (holdOnWritten a)
  have hwake := holdOnWritten_onlyFlds a
  have hhold : fget PWR_WAKE_HOLD_ON a = v :=
    (hwritten (PWR_WAKE_HOLD_ON, .rw) (by simp [pwrWakeFlds])).trans (writtenValue_holdOn hv s)
  rw [hu]
  refine ⟨?_, hcount.2.trans (hwake.2.trans hframe), fun t ht => ?_⟩
  · rw [hcount.fget_eq (by decide), hwake.fget_eq (by decide), hhold]
  · have hkey : ∀ x ∈ pwrWakeFlds, (TIL_STATE_POWER t).key ≠ x.1.key ∧ (TIL_PAN_SPARE_RETIRED t).key ≠ x.1.key := fun x hx =>
      have h := tile_key_ne_of_le ht (f := x.1) (by revert x; decide)
      ⟨h.1, h.2.2⟩
    have hp : fget (TIL_STATE_POWER t) a = fget (TIL_STATE_POWER t) s :=
      hothers _ (List.forall_mem_map.2 fun x hx => (hkey x hx).1)
    have hmay : mayPower t a = mayPower t s :=
      mayPower_congr (hothers _ (by decide)) (hothers _ (List.forall_mem_map.2 fun x hx => (hkey x hx).2))
    have hcnt : (TIL_STATE_POWER t).key ≠ GLB_IGNORED_WRITE_CNT.key := by
      simp only [TIL_STATE_POWER, GLB_IGNORED_WRITE_CNT]
      omega
    rw [hcount.fget_eq (by simpa using hcnt), fget_power_holdOnWritten ht, hhold, wokenPower, hp, hmay, wokenPower]

/-! ### The exit from self-refresh (R22) -/

theorem srWait_nil {s : State} (h : s.prt.srWait = []) : { s with prt := { s.prt with srWait := [] } } = s := by rw [← h]

/-- With no host access waiting, the exit from self-refresh clears the tile's bit of PWR_RETAIN. -/
theorem refreshExit_nil {t : Nat} {s : State} (h : s.prt.srWait = []) :
    refreshExit t s = if bitAt (fget PWR_RETAIN_SELF_REFRESH s) t = true then setRetain t false s else s := by
  unfold refreshExit
  cases bitAt (fget PWR_RETAIN_SELF_REFRESH s) t with
  | false => simp
  | true =>
    have hw : (setRetain t false s).prt.srWait = [] := h
    simp [hw, each, srWait_nil hw]

theorem dispatchPieces_of_noneWaits {s : State} (h : NoneWaits s) : dispatchPieces s = s := by
  have hnil : s.pan.pieces.filter (·.waiting) = [] := List.filter_eq_nil_iff.2 fun p hp => by simp [h p hp]
  rw [dispatchPieces, hnil, each, List.foldl_nil]

/-! ### A tile gates (R227, R423) -/

theorem gateTile_idle {t : Nat} {s : State} (hp : fget (TIL_STATE_POWER t) s = 2) (hb : tileBusy t s = false)
    (hh : tileHeld t s = false) (hc : tileCopies t s = []) : gateTile t s = fset (TIL_STATE_POWER t) 3 s := by
  simp [gateTile, hp, hb, hh, hc, each]

/-- A tile that no entry of the directory or of the filter names has nothing to purge. -/
theorem purgeTile_unnamed {t : Nat} {s : State} (hd : ∀ e ∈ s.coh.dir, purgeEntry t e.2 = e.2)
    (hf : ∀ e ∈ s.coh.filter, purgeEntry t e.2.dir = e.2.dir) : purgeTile t s = s := by
  have hdir : s.coh.dir.filter (fun e => purgeEntry t e.2 != e.2) = [] :=
    List.filter_eq_nil_iff.2 fun e he => by simp [hd e he]
  have hfilter : s.coh.filter.filter (fun e => purgeEntry t e.2.dir != e.2.dir) = [] :=
    List.filter_eq_nil_iff.2 fun e he => by simp [hf e he]
  simp [purgeTile, hdir, hfilter, each]

theorem gatedTile_flushed {t : Nat} {s : State} (hp : fget (TIL_STATE_POWER t) s = 3) (hc : tileCopies t s = []) :
    gatedTile t s = tileOff t (purgeTile t s) := by
  simp [gatedTile, hp, hc]

theorem tileOff_onlyFlds (t : Nat) (s : State) :
    OnlyFlds (TIL_STATE_POWER t :: PWR_DOMAIN_ON :: tileCodeFlds) s (tileOff t s) :=
  ((fset_onlyFlds _ _ s).trans (setDomain_onlyFlds _ _ _)).trans (showCodes_onlyFlds _)

/-- A tile switched off: GATED, its domain off. -/
theorem tileOff_spec {t : Nat} (ht : t < 32) (s : State) :
    fget (TIL_STATE_POWER t) (tileOff t s) = 0 ∧ domainOn t (tileOff t s) = false := by
  have hdom := tile_key_ne_of_le ht (f := PWR_DOMAIN_ON) (by decide)
  have hcode := fun g hg => tile_key_ne_of_le ht (f := g) (Nat.le_trans (by decide) (tileCodeFlds_key hg))
  have hcodes := showCodes_onlyFlds (setDomain t false (fset (TIL_STATE_POWER t) 0 s))
  constructor
  · rw [tileOff, hcodes.fget_eq fun g hg => (hcode g hg).1, (setDomain_onlyFlds _ _ _).fget_eq (by simpa using hdom.1)]
    exact fget_fset_of_lt s (by simp [TIL_STATE_POWER])
  · rw [tileOff, domainOn_congr (hcodes.fget_eq (by decide)), domainOn_setDomain _ _ _ (by omega), if_pos rfl]

/-- Switching a tile off leaves the power state of the others. -/
theorem fget_power_tileOff_ne {i t : Nat} (hi : i < 32) (h : i ≠ t) (s : State) :
    fget (TIL_STATE_POWER i) (tileOff t s) = fget (TIL_STATE_POWER i) s := by
  refine (tileOff_onlyFlds t s).fget_eq (List.forall_mem_cons.2 ⟨power_key_ne h, List.forall_mem_cons.2 ⟨?_, fun g hg => ?_⟩⟩)
  · exact (tile_key_ne_of_le hi (by decide)).1
  · exact (tile_key_ne_of_le hi (Nat.le_trans (by decide) (tileCodeFlds_key hg))).1

/-! ### A waking tile is on (R424) -/

/-- The incarnation after `i`: 16 bits, without 0. -/
def nextIncarnation (i : Nat) : Nat := if (i + 1) % 65536 = 0 then 1 else (i + 1) % 65536

theorem nextIncarnation_eq (i : Nat) : nextIncarnation i = if i % 65536 = 65535 then 1 else (i + 1) % 65536 := by
  unfold nextIncarnation
  split <;> split <;> omega

theorem nextIncarnation_lt (i : Nat) : nextIncarnation i < 65536 := by
  unfold nextIncarnation
  split <;> omega

/-- The exit from self-refresh with no host access waiting clears the tile's bit, whatever it was. -/
theorem refreshExit_nil_spec {t : Nat} {s : State} (ht : t < 32) (h : s.prt.srWait = []) :
    bitAt (fget PWR_RETAIN_SELF_REFRESH (refreshExit t s)) t = false
      ∧ OnlyFlds [PWR_RETAIN_SELF_REFRESH] s (refreshExit t s) := by
  rw [refreshExit_nil h]
  split
  · exact ⟨by rw [retain_setRetain _ _ _ ht, if_pos rfl], setRetain_onlyFlds _ _ s⟩
  · next hbit => exact ⟨Bool.eq_false_iff.2 hbit, .refl _ s⟩

/-- Tile `t` is ON under its next incarnation. -/
def turnOn (t : Nat) (s : State) : State :=
  fset (TIL_STATE_INCARNATION t) (nextIncarnation (fget (TIL_STATE_INCARNATION t) s)) (fset (TIL_STATE_POWER t) 2 s)

theorem turnOn_onlyFlds (t : Nat) (s : State) : OnlyFlds [TIL_STATE_POWER t, TIL_STATE_INCARNATION t] s (turnOn t s) :=
  (fset_onlyFlds _ _ s).trans (fset_onlyFlds _ _ _)

theorem fget_power_turnOn (t : Nat) (s : State) : fget (TIL_STATE_POWER t) (turnOn t s) = 2 := by
  have hkey : (TIL_STATE_POWER t).key ≠ (TIL_STATE_INCARNATION t).key := by
    simp only [TIL_STATE_POWER, TIL_STATE_INCARNATION]
    omega
  rw [turnOn, fget_fset_ne _ _ hkey]
  exact fget_fset_of_lt s (by simp [TIL_STATE_POWER])

theorem fget_incarnation_turnOn (t : Nat) (s : State) :
    fget (TIL_STATE_INCARNATION t) (turnOn t s) = nextIncarnation (fget (TIL_STATE_INCARNATION t) s) :=
  fget_fset_of_lt _ (nextIncarnation_lt _)

theorem wokeTile_waking {t : Nat} {s : State} (hp : fget (TIL_STATE_POWER t) s = 1) :
    wokeTile t s = refreshExit t (showCodes (turnOn t s)) := by
  simp [wokeTile, hp, turnOn, nextIncarnation]

/-- A tile that has woken: ON, under its next incarnation, its vaults out of self-refresh. -/
theorem wokeTile_spec {t : Nat} {s : State} (ht : t < 32) (hp : fget (TIL_STATE_POWER t) s = 1) (hw : s.prt.srWait = []) :
    fget (TIL_STATE_POWER t) (wokeTile t s) = 2
      ∧ fget (TIL_STATE_INCARNATION t) (wokeTile t s) = nextIncarnation (fget (TIL_STATE_INCARNATION t) s)
      ∧ bitAt (fget PWR_RETAIN_SELF_REFRESH (wokeTile t s)) t = false
      ∧ OnlyFlds ([TIL_STATE_POWER t, TIL_STATE_INCARNATION t, PWR_RETAIN_SELF_REFRESH] ++ tileCodeFlds) s (wokeTile t s) := by
  rw [wokeTile_waking hp]
  have hon := turnOn_onlyFlds t s
  have hcodes := showCodes_onlyFlds (turnOn t s)
  obtain ⟨hbit, hexit⟩ := refreshExit_nil_spec ht (s := showCodes (turnOn t s)) (by rw [hcodes.prt_eq, hon.prt_eq, hw])
  have hretain := tile_key_ne_of_le ht (f := PWR_RETAIN_SELF_REFRESH) (by decide)
  have hcode := fun g hg => tile_key_ne_of_le ht (f := g) (Nat.le_trans (by decide) (tileCodeFlds_key hg))
  refine ⟨?_, ?_, hbit, ((hon.trans hcodes).trans hexit).mono fun f hf => ?_⟩
  · rw [hexit.fget_eq (by simpa using hretain.1), hcodes.fget_eq fun g hg => (hcode g hg).1, fget_power_turnOn]
  · rw [hexit.fget_eq (by simpa using hretain.2.1), hcodes.fget_eq fun g hg => (hcode g hg).2.1, fget_incarnation_turnOn]
  · simp only [List.mem_append, List.mem_cons, List.not_mem_nil, or_false] at hf ⊢
    obtain ((hpower | hinc) | hcode) | hretain := hf
    · exact .inl (.inl hpower)
    · exact .inl (.inr (.inl hinc))
    · exact .inr hcode
    · exact .inl (.inr (.inr hretain))

end Sys2Proof.Machine
end

section
/-! The statement about tiles that gate and wake (chapter 17). -/

namespace Sys2Proof.Machine

/-- Loading a tile's bit of PWR_RETAIN leaves the bits of the others, and every other field. -/
theorem setRetain_bits (t : Fin 32) (on : Bool) (s : State) :
    RegsBut [PWR_RETAIN_SELF_REFRESH] s (setRetain t on s) ∧ SameBut [.regs] s (setRetain t on s)
      ∧ ∀ i : Fin 32, bitAt (fget PWR_RETAIN_SELF_REFRESH (setRetain t on s)) i
        = if i = t then on else bitAt (fget PWR_RETAIN_SELF_REFRESH s) i := by
  obtain ⟨hregs, hsame⟩ := setRetain_onlyFlds t on s
  refine ⟨hregs, hsame, fun i => ?_⟩
  simpa only [Fin.ext_iff] using retain_setRetain t on s i.isLt

/-- Settles O47: every operation on a tile's power writes a short list of register fields and nothing else, and the wakes that
one write of HOLD_ON starts do not meet. -/
theorem tilesGateAndWake : Obligations.TilesGateAndWake := by
  refine ⟨fun t s => ⟨fun hp hb hh hc => ?_, fun hp hc hd hf => ?_, fun hp hm => ?_, fun hp => ?_, fun hp => ?_,
    fun hbit hw => ?_⟩, fun src v s hm hv => ?_, fun t s hp hw hn => ?_⟩
  · have honly := fset_onlyFlds (TIL_STATE_POWER t) 3 s
    refine ⟨_, congrArg Host.Outcome.next (gateTile_idle hp hb hh hc), ?_, honly.1, honly.2⟩
    exact fget_fset_of_lt s (by simp [TIL_STATE_POWER])
  · have hsame := (tileOff_onlyFlds t s).2
    refine ⟨tileOff t s, congrArg Host.Outcome.next ((gatedTile_flushed hp hc).trans (by rw [purgeTile_unnamed hd hf])), ?_⟩
    obtain ⟨hpower, hdomain⟩ := tileOff_spec t.isLt s
    exact ⟨hpower, hdomain, fun i hi => fget_power_tileOff_ne i.isLt (Fin.val_ne_of_ne hi) s, hsame⟩
  · obtain ⟨hpower, hdomain, hcounted⟩ := wakeTile_gated_spec t.isLt hp hm
    have honly := wakeTile_onlyFlds t s
    exact ⟨_, rfl, hpower, hdomain, hcounted, honly.1, honly.2⟩
  · have honly := fset_onlyFlds (TIL_STATE_POWER t) 2 s
    refine ⟨_, congrArg Host.Outcome.next (wakeTile_flushing hp), ?_, honly.1, honly.2⟩
    exact fget_fset_of_lt s (by simp [TIL_STATE_POWER])
  · exact ⟨_, congrArg Host.Outcome.next (if_pos hp), setRetain_bits t true s⟩
  · exact ⟨_, congrArg Host.Outcome.next ((refreshExit_nil hw).trans (if_pos hbit)), setRetain_bits t false s⟩
  · obtain ⟨hhold, hsame, hpower⟩ := plainWrite_pwrWake_spec hm hv s
    refine ⟨_, rfl, hhold, hsame, fun t => ?_⟩
    rw [hpower t t.isLt, wokenPower]
    cases bitAt v.toNat t with
    | true => simp only [if_true, true_and]
    | false => simp only [Bool.false_eq_true, if_false, false_and]
  · obtain ⟨hpower, hinc, hbit, honly⟩ := wokeTile_spec t.isLt hp hw
    have hnone : NoneWaits (wokeTile t s) := by rwa [NoneWaits, honly.pan_eq]
    refine ⟨_, congrArg Host.Outcome.next (dispatchPieces_of_noneWaits hnone), hpower, ?_, hbit, honly.1, honly.2⟩
    rw [hinc, nextIncarnation_eq]

end Sys2Proof.Machine
end

section
/-! The statement about pans that fail (chapters 9 and 19). -/

namespace Sys2Proof.Machine

/-- Tile 1 is retired, so tile 0 serves its vaults (R235). Two pieces have the id 1: one waits for vault 5 of tile 1, the other
runs on pan 300 of tile 2. -/
def piecesOfOneId : State :=
  { pan := { pieces := [{ id := 1, desc := 0, pan := 133, on := 133, waiting := true }, { id := 1, desc := 0, pan := 300, on := 300 }] } }
    |> fset PWR_DOMAIN_ON (2 ^ 36) |> fset (TIL_PAN_SPARE_RETIRED 1) 1

/-- The waiting piece is tried on pan 5, which its tile's self-test closes; the running piece, found by the same id, is moved to
that pan with it and still counts as running. -/
theorem selftestStart_piecesOfOneId :
    (selftestStart 0 piecesOfOneId).pan.pieces.map (fun y => (y.on, y.waiting)) = [(5, true), (5, false)] := by
  decide +kernel

/-- Refutes O33: SELFTEST_START is stated for pieces that may share an id, and with such a pair a piece
runs on a tile whose self-test has begun. -/
theorem not_pansThatFail : ¬ Obligations.PansThatFail := by
  intro h
  obtain ⟨-, -, -, -, -, hstart, -⟩ := h
  obtain ⟨u, hu, -, hwait, -⟩ :=
    hstart 0 piecesOfOneId (by decide +kernel) (by decide +kernel) (by decide +kernel) (by decide +kernel)
  obtain rfl : selftestStart 0 piecesOfOneId = u := Host.Outcome.next.inj hu
  have hruns : (5, false) ∈ (selftestStart 0 piecesOfOneId).pan.pieces.map (fun y => (y.on, y.waiting)) := by
    rw [selftestStart_piecesOfOneId]
    decide
  obtain ⟨y, hy, heq⟩ := List.mem_map.1 hruns
  obtain ⟨hon, hwaiting⟩ := Prod.mk.inj heq
  have hstill := hwait y hy (by rw [hon]; rfl)
  rw [hwaiting] at hstill
  exact Bool.false_ne_true hstill

end Sys2Proof.Machine
end
